-- ==== Sys2Proof/Word.lean ====
section
/-! DEFINITION. The word types: bytes and 32-bit words, as bits (spec 00_scope.md R9). -/
namespace Sys2Proof

/-- A byte: 8 bits, numbered 7 down to 0 (R9). -/
abbrev Byte := BitVec 8

/-- A 32-bit word: a command word (R70), RES (R28), one SNAP register (R32). -/
abbrev Word := BitVec 32

end Sys2Proof
end

