-- ==== Sys2Proof/Config.lean ====
section
/-! DEFINITION. The block's fixed parameters (spec 00_scope.md R7: "None of them is left to an implementation").
The expected lengths of the kinds (EXPLEN) are `Kind.expLen` in Machine/Operands.lean. The one open parameter,
CMD_LATENCY (R8), is an argument of the cycle-level view of the command port (Machine/Port.lean): whatever is
stated there holds for every value of it. The block is deterministic (R37), so there is no free value here. -/
namespace Sys2Proof.Config

/-- `CRC_POLY`: x^8+x^5+x^4+1 without its x^8 term (R7). -/
def crcPoly : Byte := 0x31#8

/-- `CRC_INIT` (R7). -/
def crcInit : Byte := 0xFF#8

/-- `TRIPLET_BYTES` (R7). -/
def tripletBytes : Nat := 3

/-- `FB_CAP`, the frame buffer's capacity in bytes (R7, R29). -/
def fbCap : Nat := 60

/-- `DB_CAP`, the data buffer's capacity in bytes (R7, R30). -/
def dbCap : Nat := 40

/-- `N_CHAN`, the number of measurement channels (R7, R33): the 10 of `State.snap`'s type, which R32 writes out. -/
def nChan : Nat := 10

end Sys2Proof.Config
end

