-- ==== Sys2Proof/Syntax.lean ====
section
/-! DEFINITION. The command set: one constructor per row of spec/opcode_table.json (30_encoding.md R73), and the
assembler's lines, whose operands are numbers that have still to be checked (R77, R78). -/
namespace Sys2Proof

/-- A command. Operands are unsigned bytes (R72), so every term is a command the encoding can spell. -/
inductive Instr where
  | nop                           -- R126
  | crc8 (hi lo : Byte)           -- R103
  | tchk (hi lo chk : Byte)       -- R104
  | encw (hi lo : Byte)           -- R105
  | fbclr                         -- R127
  | fbpush (b : Byte)             -- R128
  | verify                        -- R129
  | decArt                        -- R130
  | decSer                        -- R131
  | decAci                        -- R132
  | decDrdy                       -- R133
  | decMeas                       -- R134
  | reasm (g : Byte)              -- R170
  deriving DecidableEq, Repr

/-- The five kinds of response a frame is decoded as (R13, R123). -/
inductive Kind where
  | art | ser | aci | drdy | meas
  deriving DecidableEq, Repr

/-- Why a word spells no command (R74, R75). The three differ in nothing the block shows (R203). -/
inductive IllegalWord where
  /-- OP is none of R73's (R75). -/
  | unassignedOp
  /-- A reserved field is not zero (R74). -/
  | reservedNotZero
  /-- OP is 0x21 and A is above 4 (R74). -/
  | unknownKind
  deriving DecidableEq, Repr

/-- One row of the opcode map: `w` selects it when `w and mask = match` (R73). -/
structure OpRow where
  mnemonic : String
  pattern : Word
  mask : Word
  deriving DecidableEq, Repr

/-- One line of assembly: a command or a pseudo-instruction of one line, its operands plain numbers (R77, R78).
`pushw` is no line: it "needs the host to read RES between commands" (R78; see Machine/Assembler.lean). -/
inductive AsmLine where
  | nop
  | crc8 (hi lo : Nat)
  | tchk (hi lo chk : Nat)
  | encw (hi lo : Nat)
  | fbclr
  | fbpush (b : Nat)
  | verify
  | dec (k : Kind)
  | reasm (g : Nat)
  | fbpush3 (b0 b1 b2 : Nat)
  | fbload (bytes : List Nat)
  deriving DecidableEq, Repr

end Sys2Proof
end

