-- ==== Sys2Proof/WellFormed.lean ====
section
/-! DEFINITION. What can be ill formed. A term of `Instr` cannot: each operand is a byte by its type (30_encoding.md
R72) and a kind above 4 has no constructor, so there is nothing to check on it. A line of assembly can: "An operand
that does not fit 8 bits is an assembly error, not a truncation" (R77), and `fbload` takes "at most 60 bytes" (R78). -/
namespace Sys2Proof

/-- The operand fits its 8-bit field (R77). -/
def fitsByte (n : Nat) : Bool := decide (n < 256)

/-- The line assembles: every operand fits its field (R77), and `fbload` has one to 60 bytes (R78). -/
def AsmLine.wellFormed : AsmLine → Bool
  | .nop => true
  | .crc8 hi lo => fitsByte hi && fitsByte lo
  | .tchk hi lo chk => fitsByte hi && fitsByte lo && fitsByte chk
  | .encw hi lo => fitsByte hi && fitsByte lo
  | .fbclr => true
  | .fbpush b => fitsByte b
  | .verify => true
  | .dec _ => true
  | .reasm g => fitsByte g
  | .fbpush3 b0 b1 b2 => fitsByte b0 && fitsByte b1 && fitsByte b2
  | .fbload bytes => bytes.all fitsByte && decide (1 ≤ bytes.length) && decide (bytes.length ≤ Config.fbCap)

end Sys2Proof
end

