-- ==== Sys2Proof/Decode.lean ====
section
/-! DEFINITION. The decoder, total over all 2^32 words and rejecting by name (30_encoding.md R76), the opcode map as
a table of match and mask (R73), and the encoder (R73, R77). A command word comes over the port `cmd[31:0]` as one
number: it lies in no memory, so it has no byte order (10_state.md R21, 20_memory.md R69). -/
namespace Sys2Proof

/-- `{OP, A, B, C}` (R71). -/
def cmdWord (op a b c : Byte) : Word := op ++ a ++ b ++ c

/-- `OP`, bits 31:24 (R71). -/
def opField (w : Word) : Byte := w.extractLsb' 24 8

/-- `A`, bits 23:16 (R71). -/
def aField (w : Word) : Byte := w.extractLsb' 16 8

/-- `B`, bits 15:8 (R71). -/
def bField (w : Word) : Byte := w.extractLsb' 8 8

/-- `C`, bits 7:0 (R71). -/
def cField (w : Word) : Byte := w.extractLsb' 0 8

/-- A command whose reserved fields must all be zero (R74): `i` if the check holds. -/
def ifReservedZero (zero : Bool) (i : Instr) : Except IllegalWord Instr :=
  if zero then .ok i else .error .reservedNotZero

/-- `DEC(kind A)` (R76, R123): the kind's code is the A field. -/
def decodeKind (a : Byte) : Except IllegalWord Instr :=
  if a = 0x00#8 then .ok .decArt
  else if a = 0x01#8 then .ok .decSer
  else if a = 0x02#8 then .ok .decAci
  else if a = 0x03#8 then .ok .decDrdy
  else if a = 0x04#8 then .ok .decMeas
  else .error .unknownKind

/-- R76's `decode`, on the four fields. -/
def decodeFields (op a b c : Byte) : Except IllegalWord Instr :=
  if op = 0x00#8 then ifReservedZero (a == 0#8 && b == 0#8 && c == 0#8) .nop
  else if op = 0x01#8 then ifReservedZero (c == 0#8) (.crc8 a b)
  else if op = 0x02#8 then .ok (.tchk a b c)
  else if op = 0x03#8 then ifReservedZero (c == 0#8) (.encw a b)
  else if op = 0x10#8 then ifReservedZero (a == 0#8 && b == 0#8 && c == 0#8) .fbclr
  else if op = 0x11#8 then ifReservedZero (b == 0#8 && c == 0#8) (.fbpush a)
  else if op = 0x20#8 then ifReservedZero (a == 0#8 && b == 0#8 && c == 0#8) .verify
  else if op = 0x21#8 then
    if b == 0#8 && c == 0#8 then decodeKind a else .error .reservedNotZero
  else if op = 0x30#8 then ifReservedZero (b == 0#8 && c == 0#8) (.reasm a)
  else .error .unassignedOp

/-- The command a word spells, or why it spells none (R76). -/
def decode (w : Word) : Except IllegalWord Instr :=
  decodeFields (opField w) (aField w) (bField w) (cField w)

/-- The opcode map of R73, row by row. -/
def opcodeTable : List OpRow :=
  [ ⟨"NOP", 0x00000000#32, 0xFFFFFFFF#32⟩,
    ⟨"CRC8", 0x01000000#32, 0xFF0000FF#32⟩,
    ⟨"TCHK", 0x02000000#32, 0xFF000000#32⟩,
    ⟨"ENCW", 0x03000000#32, 0xFF0000FF#32⟩,
    ⟨"FBCLR", 0x10000000#32, 0xFFFFFFFF#32⟩,
    ⟨"FBPUSH", 0x11000000#32, 0xFF00FFFF#32⟩,
    ⟨"VERIFY", 0x20000000#32, 0xFFFFFFFF#32⟩ ] ++
  [ ⟨"DEC.ART", 0x21000000#32, 0xFFFFFFFF#32⟩,
    ⟨"DEC.SER", 0x21010000#32, 0xFFFFFFFF#32⟩,
    ⟨"DEC.ACI", 0x21020000#32, 0xFFFFFFFF#32⟩,
    ⟨"DEC.DRDY", 0x21030000#32, 0xFFFFFFFF#32⟩,
    ⟨"DEC.MEAS", 0x21040000#32, 0xFFFFFFFF#32⟩,
    ⟨"REASM", 0x30000000#32, 0xFF00FFFF#32⟩ ]

/-- "A word `w` selects the row when `w and mask = match`" (R73). -/
def OpRow.selects (r : OpRow) (w : Word) : Bool := w &&& r.mask == r.pattern

/-- The command's mnemonic in R73 and spec/opcode_table.json. -/
def Instr.mnemonic : Instr → String
  | .nop => "NOP"
  | .crc8 _ _ => "CRC8"
  | .tchk _ _ _ => "TCHK"
  | .encw _ _ => "ENCW"
  | .fbclr => "FBCLR"
  | .fbpush _ => "FBPUSH"
  | .verify => "VERIFY"
  | .decArt => "DEC.ART"
  | .decSer => "DEC.SER"
  | .decAci => "DEC.ACI"
  | .decDrdy => "DEC.DRDY"
  | .decMeas => "DEC.MEAS"
  | .reasm _ => "REASM"

/-- The word of a command (R73, R77). -/
def encode : Instr → Word
  | .nop => cmdWord 0x00#8 0#8 0#8 0#8
  | .crc8 hi lo => cmdWord 0x01#8 hi lo 0#8
  | .tchk hi lo chk => cmdWord 0x02#8 hi lo chk
  | .encw hi lo => cmdWord 0x03#8 hi lo 0#8
  | .fbclr => cmdWord 0x10#8 0#8 0#8 0#8
  | .fbpush b => cmdWord 0x11#8 b 0#8 0#8
  | .verify => cmdWord 0x20#8 0#8 0#8 0#8
  | .decArt => cmdWord 0x21#8 0#8 0#8 0#8
  | .decSer => cmdWord 0x21#8 1#8 0#8 0#8
  | .decAci => cmdWord 0x21#8 2#8 0#8 0#8
  | .decDrdy => cmdWord 0x21#8 3#8 0#8 0#8
  | .decMeas => cmdWord 0x21#8 4#8 0#8 0#8
  | .reasm g => cmdWord 0x30#8 g 0#8 0#8

/-- A word as spec/opcode_table.json numbers its bits, with every bit at and above `nbits` zero. Every command is
one 32-bit word (R70), and the table's bit numbers are the port's. -/
def tableWord (nbits w : Nat) : Word := BitVec.ofNat 32 (w % 2 ^ nbits)

/-- The command the decoder reads from a row's word, for the host's check of the opcode table. -/
def decodeTableWord (nbits w : Nat) : Option Instr :=
  match decode (tableWord nbits w) with
  | .ok i => some i
  | .error _ => none

end Sys2Proof
end

