-- ==== Sys2Proof/Machine/State.lean ====
section
/-! DEFINITION. The block's state (10_state.md R25 to R36), the events the host gives it (R20, R21), its output ports
(R22), and the reasons a reading or a step can stop. -/
namespace Sys2Proof.Machine

/-- The status codes by name (60_exceptions.md R200); their numbers are `Status.code` in Flags.lean. -/
inductive Status where
  | ok | crcErr | lenErr | illegal | overflow | rangeErr
  deriving DecidableEq, Repr

/-- The ErrorKinds by name (R202), in the source's order; their numbers are `ErrorKind.code` in Flags.lean. -/
inductive ErrorKind where
  | articleCode | serialNumber | autoCleanInterval | dataReadyFlag | measuredValues
  deriving DecidableEq, Repr

/-- What the host gives the block (R20, R21): a command word it accepts, or `rst` at a clock edge (R240). -/
inductive Input where
  | cmd (w : Word)
  | rst
  deriving DecidableEq, Repr

/-- The ten measurement channels (10_state.md R33). -/
inductive Channel where
  | pm1p0 | pm2p5 | pm4p0 | pm10p0 | nc0p5 | nc1p0 | nc2p5 | nc4p0 | nc10p0 | typical
  deriving DecidableEq, Repr

/-- The output ports (R22): DB has 40 host port indices and SNAP has ten (20_memory.md R50). -/
inductive OutPort where
  | status | errkind | valid | res | flen | dblen
  | db (i : Fin 40)
  | strlen | snapv
  | snap (c : Fin 10)
  deriving DecidableEq, Repr

/-- The block's registers (R34: "The registers of rules R25 to R32 are the whole of the block's state") and, beside
them, what the host has still to give it. -/
structure State where
  /-- `STATUS`, 8 bits (R25). -/
  status : BitVec 8
  /-- `ERRKIND`, 8 bits (R26). -/
  errkind : BitVec 8
  /-- `VALID`, 1 bit (R27). -/
  valid : Bool
  /-- `RES`, 32 bits (R28). -/
  res : Word
  /-- `FB` and `FLEN`: the byte list of length FLEN (R29). -/
  fb : List Byte
  /-- `DB` and `DBLEN`: the byte list of length DBLEN (R30). -/
  db : List Byte
  /-- `STRLEN`, 8 bits (R31). -/
  strlen : BitVec 8
  /-- `SNAPV` and `SNAP[0..9]`: present or absent as one (R32). -/
  snap : Option (Vector Word 10)
  /-- The MODEL's own field, DESIGN CHOICE (log entry 1): the events the host has still to give, the next one first.
  The block itself holds no queue (R35). -/
  inputs : List Input
  deriving DecidableEq, Repr

/-- A fault. No step ends in one: the block has no traps (60_exceptions.md R212). -/
inductive Fault where
  /-- The host read a conditional output whose condition fails (10_state.md R23, 93_implementation_defined.md U1:
  `fault`). Raised by `hostRead` alone, never by `step`. Safe: no value is made up. -/
  | absentOutput (p : OutPort)
  deriving DecidableEq, Repr

/-- A refusal. No command is refused: every one has its meaning. -/
inductive Refusal where
  /-- The command has no meaning in the model yet. Raised by an arm of `exec` alone; no arm raises it. Safe. -/
  | notModelled (mnemonic : String)
  deriving DecidableEq, Repr

/-- The state after reset, as R36 gives it register by register; nothing is offered yet (log entry 1). -/
def State.reset : State :=
  { status := 0#8
    errkind := 0#8
    valid := false
    res := 0x00000000#32
    fb := []
    db := []
    strlen := 0#8
    snap := none
    inputs := [] }

end Sys2Proof.Machine
end

