-- ==== Sys2Proof/Machine/Operands.lean ====
section
/-! DEFINITION. Every form in which a command reads bytes: the triplets of a frame (41_frame_decoder.md R120, R122),
the big-endian word of four bytes (42_reassembler.md R160), and what the kinds make of the extracted bytes (R166 to
R169). -/
namespace Sys2Proof.Machine

/-- `FLEN`, 8 bits: the count of FB's bytes (R29). -/
def State.flen (s : State) : BitVec 8 := BitVec.ofNat 8 s.fb.length

/-- `DBLEN`, 8 bits: the count of DB's bytes (R30). -/
def State.dblen (s : State) : BitVec 8 := BitVec.ofNat 8 s.db.length

/-- `SNAPV`: the snapshot is present (R32). -/
def State.snapv (s : State) : Bool := s.snap.isSome

/-- Byte `i` of a sequence. "A read is defined only for `i < FLEN` or `i < DBLEN`" (00_scope.md R10): every meaning
reads inside the sequence, and the zero past its end reaches no register (log entry 7). -/
def byteAt (bytes : List Byte) (i : Nat) : Byte := bytes.getD i 0#8

/-- One triplet, in wire order (R53). -/
structure Triplet where
  hi : Byte
  lo : Byte
  chk : Byte
  deriving DecidableEq, Repr

/-- The consecutive triplets of a frame, from its first byte on (R120, R58). -/
def triplets : List Byte → List Triplet
  | hi :: lo :: chk :: rest => ⟨hi, lo, chk⟩ :: triplets rest
  | _ => []

/-- `Extract`: the two data bytes of every triplet, in order, without the checksums (R122). -/
def extract (frame : List Byte) : List Byte :=
  (triplets frame).flatMap fun t => [t.hi, t.lo]

/-- `BE32(bytes, i)`: four bytes from `i` on, the first in bits 31:24 (R160). -/
def be32 (bytes : List Byte) (i : Nat) : Word :=
  byteAt bytes i ++ byteAt bytes (i + 1) ++ byteAt bytes (i + 2) ++ byteAt bytes (i + 3)

/-- `AsciiLen`: the index of the first 0x00 byte, or the length if there is none (R166). -/
def asciiLen : List Byte → Nat
  | [] => 0
  | b :: rest => if b = 0#8 then 0 else asciiLen rest + 1

/-- The data-ready reading: 1 if the second byte is not zero, else 0, as 32 bits (R168). -/
def dataReady (d : List Byte) : Word := if byteAt d 1 ≠ 0#8 then 1#32 else 0#32

/-- The measurement reading: channel `c` is `BE32(d, 4c)` (R169). -/
def channels (d : List Byte) : Vector Word 10 :=
  #v[be32 d 0, be32 d 4, be32 d 8, be32 d 12, be32 d 16, be32 d 20, be32 d 24, be32 d 28, be32 d 32, be32 d 36]

/-- REASM's byte index `4*g`, "computed as a natural number with no wrap" (R170, R72). -/
def groupIndex (g : Byte) : Nat := 4 * g.toNat

end Sys2Proof.Machine

namespace Sys2Proof

/-- `EXPLEN(kind)`: the expected frame length (R123, R7). -/
def Kind.expLen : Kind → Nat
  | .art => 48
  | .ser => 48
  | .aci => 6
  | .drdy => 3
  | .meas => 60

/-- The kind's ErrorKind (R123). -/
def Kind.errorKind : Kind → Machine.ErrorKind
  | .art => .articleCode
  | .ser => .serialNumber
  | .aci => .autoCleanInterval
  | .drdy => .dataReadyFlag
  | .meas => .measuredValues

end Sys2Proof
end

