-- ==== Sys2Proof/Machine/Flags.lean ====
section
/-! DEFINITION. The checksum (40_checksum.md R100 to R102), the VALID flag's computations (R104, 41_frame_decoder.md
R121), and the codes of STATUS and ERRKIND (60_exceptions.md R200, R202). -/
namespace Sys2Proof.Machine

/-- One iteration: "if the high bit is set, shift left and XOR with polynomial `0x31`, else shift left" (R100). -/
def crcShift (acc : Byte) : Byte :=
  if acc.msb then (acc <<< 1) ^^^ Config.crcPoly else acc <<< 1

/-- `T(acc)`: the eight iterations (R102). -/
def crcStep (acc : Byte) : Byte :=
  crcShift (crcShift (crcShift (crcShift (crcShift (crcShift (crcShift (crcShift acc)))))))

/-- Takes one byte into the accumulator: XOR it in, then the eight iterations (R100). -/
def crcByte (acc b : Byte) : Byte := crcStep (acc ^^^ b)

/-- `crc8(hi, lo)`: from 0xFF, the high byte first (R100, 20_memory.md R54). -/
def crc8 (hi lo : Byte) : Byte := crcByte (crcByte Config.crcInit hi) lo

/-- One iteration of the source's unbounded accumulator: bit 7 alone is tested, nothing is masked (R101). -/
def wideShift (acc : Nat) : Nat :=
  if acc.testBit 7 then (acc <<< 1) ^^^ Config.crcPoly.toNat else acc <<< 1

/-- One byte into the source's unbounded accumulator (R100's quotation, R101). -/
def wideByte (acc : Nat) (b : Byte) : Nat := wideShift^[8] (acc ^^^ b.toNat)

/-- The source's form of the checksum: the accumulator grows, and is masked to its low 8 bits at the end (R100's
quotation, R101). No command uses it. -/
def crc8Wide (hi lo : Byte) : Nat := wideByte (wideByte Config.crcInit.toNat hi) lo % 256

/-- The triplet's checksum matches (R104, R121). -/
def Triplet.ok (t : Triplet) : Bool := crc8 t.hi t.lo == t.chk

/-- `AllTriplets`: the AND over every triplet of the frame (R121). -/
def allTriplets (frame : List Byte) : Bool := (triplets frame).all Triplet.ok

/-- The status codes (R200). -/
def Status.code : Status → BitVec 8
  | .ok => 0#8
  | .crcErr => 1#8
  | .lenErr => 2#8
  | .illegal => 3#8
  | .overflow => 4#8
  | .rangeErr => 5#8

/-- The ErrorKind codes (R202). -/
def ErrorKind.code : ErrorKind → BitVec 8
  | .articleCode => 1#8
  | .serialNumber => 2#8
  | .autoCleanInterval => 3#8
  | .dataReadyFlag => 4#8
  | .measuredValues => 5#8

/-- ERRKIND's code: 0 for none (R202). -/
def errkindCode : Option ErrorKind → BitVec 8
  | none => 0#8
  | some e => e.code

end Sys2Proof.Machine
end

