-- ==== Sys2Proof/Machine/Ops.lean ====
section
/-! DEFINITION. The named operations over the block's registers. `report` is all there is of taking an exception:
"The block has no traps. ... 'Trap entry' is therefore just the `report` of rule R201" (60_exceptions.md R212), and
there is no return from one (R213). -/
namespace Sys2Proof.Machine

/-- How a step or a meaning ends. -/
abbrev Result := Host.Outcome State Fault Refusal

/-- `report(st, ek)`: `STATUS <- st; ERRKIND <- ek` (R201). -/
def report (st : Status) (ek : Option ErrorKind) (s : State) : State :=
  { s with status := st.code, errkind := errkindCode ek }

/-- `RES <- v` (R28). -/
def setRes (v : Word) (s : State) : State := { s with res := v }

/-- `VALID <- v` (R27). -/
def setValid (v : Bool) (s : State) : State := { s with valid := v }

/-- `FLEN <- 0` (R127). -/
def clearFrame (s : State) : State := { s with fb := [] }

/-- `FB[FLEN] <- b; FLEN <- FLEN + 1` (R128, R51). -/
def pushByte (b : Byte) (s : State) : State := { s with fb := s.fb ++ [b] }

/-- `DB <- d; DBLEN <- len(d)`: DB is replaced whole (R124, 20_memory.md R52). -/
def setData (d : List Byte) (s : State) : State := { s with db := d }

/-- `STRLEN <- n` (R31), truncated to its width (00_scope.md R10). -/
def setStrlen (n : Nat) (s : State) : State := { s with strlen := BitVec.ofNat 8 n }

/-- `SNAP <- v; SNAPV <- 1`, all ten at once (R134, 20_memory.md R62). -/
def commitSnapshot (v : Vector Word 10) (s : State) : State := { s with snap := some v }

/-- The state with the events still to come replaced (log entry 1). -/
def setInputs (es : List Input) (s : State) : State := { s with inputs := es }

/-- `Interpret(K, d)` (R130 to R134). -/
def interpret (k : Kind) (d : List Byte) (s : State) : State :=
  match k with
  | .art => setStrlen (asciiLen d) s
  | .ser => setStrlen (asciiLen d) s
  | .aci => setRes (be32 d 0) s
  | .drdy => setRes (dataReady d) s
  | .meas => commitSnapshot (channels d) s

/-- `Decode(K)` (R124): the length, then every checksum, then the data, all or nothing (R125). -/
def decodeFrame (k : Kind) (s : State) : State :=
  if s.fb.length ≠ k.expLen then
    report .lenErr none s
  else if allTriplets s.fb = false then
    report .crcErr (some k.errorKind) (setValid false s)
  else
    report .ok none (interpret k (extract s.fb) (setValid true (setData (extract s.fb) s)))

/-- A word that spells no command: `report(ILLEGAL, 0)` and nothing else; its bits are not recorded (R203). -/
def runIllegal (_why : IllegalWord) (s : State) : Result := .next (report .illegal none s)

/-- `rst` at a clock edge: every register into the reset state, from any state (70_reset_and_hazards.md R240). What
the host will give the block afterwards is not the block's, and stays. -/
def resetBlock (s : State) : State := setInputs s.inputs State.reset

end Sys2Proof.Machine
end

