-- ==== Sys2Proof/Machine/Checksum.lean ====
section
/-! DEFINITION. The checksum engine's commands: CRC8, TCHK, ENCW (40_checksum.md R103 to R106). -/
namespace Sys2Proof.Machine

/-- CRC8: `RES <- zext_32(crc8(hi, lo)); report(OK, 0)` (R103). -/
def execCrc8 (hi lo : Byte) (s : State) : Result :=
  .next (report .ok none (setRes ((crc8 hi lo).setWidth 32) s))

/-- TCHK: `RES <- zext_32({hi, lo}); VALID <- (crc8(hi, lo) = chk); report(OK, 0)` (R104). -/
def execTchk (hi lo chk : Byte) (s : State) : Result :=
  .next (report .ok none (setValid (Triplet.ok ⟨hi, lo, chk⟩) (setRes ((hi ++ lo).setWidth 32) s)))

/-- ENCW: `RES <- {0x00, hi, lo, crc8(hi, lo)}; report(OK, 0)` (R105). -/
def execEncw (hi lo : Byte) (s : State) : Result :=
  .next (report .ok none (setRes (0x00#8 ++ hi ++ lo ++ crc8 hi lo) s))

end Sys2Proof.Machine
end

