-- ==== Sys2Proof/Machine/FrameDecoder.lean ====
section
/-! DEFINITION. The frame decoder's commands: NOP, FBCLR, FBPUSH, VERIFY and DEC.* (41_frame_decoder.md R126 to
R134). -/
namespace Sys2Proof.Machine

/-- NOP: `report(OK, 0)` (R126). -/
def execNop (s : State) : Result := .next (report .ok none s)

/-- FBCLR: `FLEN <- 0; report(OK, 0)` (R127). -/
def execFbclr (s : State) : Result := .next (report .ok none (clearFrame s))

/-- FBPUSH: OVERFLOW, the byte dropped, when FLEN = 60; else the byte is appended (R128, R206). -/
def execFbpush (b : Byte) (s : State) : Result :=
  if s.fb.length = Config.fbCap then .next (report .overflow none s)
  else .next (report .ok none (pushByte b s))

/-- VERIFY: LEN_ERR when FLEN is 0 or no multiple of 3; else the verdict in VALID (R129). -/
def execVerify (s : State) : Result :=
  if s.fb.length = 0 ∨ s.fb.length % Config.tripletBytes ≠ 0 then .next (report .lenErr none s)
  else .next (report .ok none (setValid (allTriplets s.fb) s))

/-- DEC.ART (R130). -/
def execDecArt (s : State) : Result := .next (decodeFrame .art s)

/-- DEC.SER (R131). -/
def execDecSer (s : State) : Result := .next (decodeFrame .ser s)

/-- DEC.ACI (R132). -/
def execDecAci (s : State) : Result := .next (decodeFrame .aci s)

/-- DEC.DRDY (R133). -/
def execDecDrdy (s : State) : Result := .next (decodeFrame .drdy s)

/-- DEC.MEAS (R134). -/
def execDecMeas (s : State) : Result := .next (decodeFrame .meas s)

end Sys2Proof.Machine
end

