-- ==== Sys2Proof/Machine/Reassembler.lean ====
section
/-! DEFINITION. The reassembler's command: REASM (42_reassembler.md R170). -/
namespace Sys2Proof.Machine

/-- REASM: RANGE_ERR when `4*g + 4 > DBLEN`, RES unchanged; else `RES <- BE32(DB, 4*g)` (R170, R207). -/
def execReasm (g : Byte) (s : State) : Result :=
  if groupIndex g + 4 > s.db.length then .next (report .rangeErr none s)
  else .next (report .ok none (setRes (be32 s.db (groupIndex g)) s))

end Sys2Proof.Machine
end

