-- ==== Sys2Proof/Machine/Dispatch.lean ====
section
/-! DEFINITION. One arm per command, each one direct call of the command's meaning. -/
namespace Sys2Proof.Machine

def exec (i : Instr) (s : State) : Host.Outcome State Fault Refusal :=
  match i with
  | .nop => Sys2Proof.Machine.execNop s
  | .crc8 hi lo => Sys2Proof.Machine.execCrc8 hi lo s
  | .tchk hi lo chk => Sys2Proof.Machine.execTchk hi lo chk s
  | .encw hi lo => Sys2Proof.Machine.execEncw hi lo s
  | .fbclr => Sys2Proof.Machine.execFbclr s
  | .fbpush b => Sys2Proof.Machine.execFbpush b s
  | .verify => Sys2Proof.Machine.execVerify s
  | .decArt => Sys2Proof.Machine.execDecArt s
  | .decSer => Sys2Proof.Machine.execDecSer s
  | .decAci => Sys2Proof.Machine.execDecAci s
  | .decDrdy => Sys2Proof.Machine.execDecDrdy s
  | .decMeas => Sys2Proof.Machine.execDecMeas s
  | .reasm g => Sys2Proof.Machine.execReasm g s

end Sys2Proof.Machine
end

