-- ==== Sys2Proof/Machine/Command.lean ====
section
/-! DEFINITION. What the block does with one event of the host's: the only kind of step it has (10_state.md R20). -/
namespace Sys2Proof.Machine

/-- One command word, decoded and run as one atomic step (10_state.md R24, 30_encoding.md R76). -/
def runWord (w : Word) (s : State) : Result :=
  match decode w with
  | .ok i => exec i s
  | .error why => runIllegal why s

/-- One event: a command word, or `rst` (70_reset_and_hazards.md R240). -/
def runInput (e : Input) (s : State) : Result :=
  match e with
  | .cmd w => runWord w s
  | .rst => .next (resetBlock s)

/-- No event is offered: the block holds its registers ("The block never steps on its own", R20; log entry 2). -/
def idle (s : State) : Result := .next s

/-- The block takes the next event of those the host has still to give (log entry 1). -/
def runNext (s : State) : Result :=
  match s.inputs with
  | [] => idle s
  | e :: rest => runInput e (setInputs rest s)

end Sys2Proof.Machine
end

