-- ==== Sys2Proof/Machine/Step.lean ====
section
/-! DEFINITION. One step of the machine, and how a command word comes to be its next one. -/
namespace Sys2Proof.Machine

/-- One step: the block takes the host's next event and completes it before any other (10_state.md R24,
20_memory.md R66). -/
def step (s : State) : Host.Outcome State Fault Refusal := runNext s

/-- The state in which the host offers the command word of `nbits` bits `w` next, before what it offered so far.
The block has no program and no fetch (20_memory.md R69): a program is the host's sequence of command words, and it
comes from outside the machine (log entry 3). -/
def State.withFetchWord (s : State) (nbits w : Nat) : State :=
  { s with inputs := .cmd (tableWord nbits w) :: s.inputs }

end Sys2Proof.Machine
end

