-- ==== Sys2Proof/Machine/Assembler.lean ====
section
/-! DEFINITION. The assembler of 30_encoding.md R77 and R78: a line's text, its commands and its words. Text is a list
of characters. What R77 leaves open of the lexical form is log entry 11. -/
namespace Sys2Proof

/-- Why a line is an assembly error. R77 names one such error, the operand that does not fit 8 bits, and gives it no
name; the other errors, all four names and their precedence (`parseLine`, `AsmLine.assemble`) are the model's choice
(DESIGN CHOICE, unsafe for claims about such lines, log entry 16). -/
inductive AsmError where
  /-- No such mnemonic; `pushw` too, which is no line of words (the model's choice, log entry 16). -/
  | unknownMnemonic
  /-- Not as many operands as the mnemonic takes (the model's choice, log entry 16). -/
  | operandCount
  /-- An operand that is neither decimal nor hex with `0x` (the model's choice, log entry 16). -/
  | notANumber
  /-- "An operand that does not fit 8 bits is an assembly error, not a truncation" (R77). That `fbload` with no byte or
  with more than 60 (R78) is an error, and this one, is the model's choice (log entry 16). -/
  | doesNotFit
  deriving DecidableEq, Repr

/-- An operand, "written into the field unchanged" (R77): used on operands that fit. -/
def operandByte (n : Nat) : Byte := BitVec.ofNat 8 n

/-- The DEC command of a kind (R77, R123). -/
def Kind.instr : Kind → Instr
  | .art => .decArt
  | .ser => .decSer
  | .aci => .decAci
  | .drdy => .decDrdy
  | .meas => .decMeas

/-- The commands of a well-formed line, in order (R77, R78). -/
def AsmLine.expand : AsmLine → List Instr
  | .nop => [.nop]
  | .crc8 hi lo => [.crc8 (operandByte hi) (operandByte lo)]
  | .tchk hi lo chk => [.tchk (operandByte hi) (operandByte lo) (operandByte chk)]
  | .encw hi lo => [.encw (operandByte hi) (operandByte lo)]
  | .fbclr => [.fbclr]
  | .fbpush b => [.fbpush (operandByte b)]
  | .verify => [.verify]
  | .dec k => [k.instr]
  | .reasm g => [.reasm (operandByte g)]
  | .fbpush3 b0 b1 b2 => [.fbpush (operandByte b0), .fbpush (operandByte b1), .fbpush (operandByte b2)]
  | .fbload bytes => .fbclr :: bytes.map fun b => .fbpush (operandByte b)

/-- The words of a line, or the error of one whose operands do not fit (R77). That an `fbload` of no byte or of more
than 60 gets the same error is the model's choice (DESIGN CHOICE, log entry 16). -/
def AsmLine.assemble (l : AsmLine) : Except AsmError (List Word) :=
  if l.wellFormed then .ok (l.expand.map encode) else .error .doesNotFit

/-- `pushw hi, lo` up to the host's reading of RES (R78). -/
def pushwBefore (hi lo : Byte) : List Instr := [.encw hi lo]

/-- `pushw hi, lo` once the host has read RES (R78). -/
def pushwAfter (hi lo : Byte) (res : Word) : List Instr :=
  [.fbpush hi, .fbpush lo, .fbpush (res.extractLsb' 0 8)]

/-- Blank characters between the parts of a line (log entry 11). -/
def isBlank (c : Char) : Bool := c == ' ' || c == '\t' || c == '\r'

/-- The text without blanks at its two ends. -/
def trimBlanks (t : List Char) : List Char := ((t.dropWhile isBlank).reverse.dropWhile isBlank).reverse

/-- The parts of a text between commas: "operands are separated by commas" (R77). -/
def splitCommas : List Char → List (List Char)
  | [] => [[]]
  | c :: cs =>
    if c = ',' then [] :: splitCommas cs
    else
      match splitCommas cs with
      | [] => [[c]]
      | part :: parts => (c :: part) :: parts

/-- The value of a digit, in lower case. -/
def digitValue (base : Nat) (c : Char) : Option Nat :=
  let v : Option Nat :=
    if '0' ≤ c ∧ c ≤ '9' then some (c.toNat - '0'.toNat)
    else if 'a' ≤ c ∧ c ≤ 'f' then some (c.toNat - 'a'.toNat + 10)
    else none
  v.filter (· < base)

/-- Digits onto a number, most significant first. -/
def digitsOnto (base : Nat) : List Char → Nat → Option Nat
  | [], n => some n
  | c :: cs, n => (digitValue base c).bind fun d => digitsOnto base cs (n * base + d)

/-- A number, "decimal, or hex with `0x`" (R77), in lower case. -/
def parseNumber : List Char → Option Nat
  | [] => none
  | ['0', 'x'] => none
  | '0' :: 'x' :: digits => digitsOnto 16 digits 0
  | digits => digitsOnto 10 digits 0

/-- A mnemonic without operands. -/
def takesNone (l : AsmLine) : List Nat → Option AsmLine
  | [] => some l
  | _ => none

/-- A mnemonic with one operand. -/
def takesOne (f : Nat → AsmLine) : List Nat → Option AsmLine
  | [a] => some (f a)
  | _ => none

/-- A mnemonic with two operands. -/
def takesTwo (f : Nat → Nat → AsmLine) : List Nat → Option AsmLine
  | [a, b] => some (f a b)
  | _ => none

/-- A mnemonic with three operands. -/
def takesThree (f : Nat → Nat → Nat → AsmLine) : List Nat → Option AsmLine
  | [a, b, c] => some (f a b c)
  | _ => none

/-- A mnemonic with one or more operands. -/
def takesSome (f : List Nat → AsmLine) : List Nat → Option AsmLine
  | [] => none
  | a :: rest => some (f (a :: rest))

/-- The mnemonics, in lower case, and the operands each takes (R77, R78). -/
def asmMnemonics : List (List Char × (List Nat → Option AsmLine)) :=
  [ (['n', 'o', 'p'], takesNone .nop),
    (['c', 'r', 'c', '8'], takesTwo .crc8),
    (['t', 'c', 'h', 'k'], takesThree .tchk),
    (['e', 'n', 'c', 'w'], takesTwo .encw),
    (['f', 'b', 'c', 'l', 'r'], takesNone .fbclr),
    (['f', 'b', 'p', 'u', 's', 'h'], takesOne .fbpush),
    (['v', 'e', 'r', 'i', 'f', 'y'], takesNone .verify) ] ++
  [ (['d', 'e', 'c', '.', 'a', 'r', 't'], takesNone (.dec .art)),
    (['d', 'e', 'c', '.', 's', 'e', 'r'], takesNone (.dec .ser)),
    (['d', 'e', 'c', '.', 'a', 'c', 'i'], takesNone (.dec .aci)),
    (['d', 'e', 'c', '.', 'd', 'r', 'd', 'y'], takesNone (.dec .drdy)),
    (['d', 'e', 'c', '.', 'm', 'e', 'a', 's'], takesNone (.dec .meas)) ] ++
  [ (['r', 'e', 'a', 's', 'm'], takesOne .reasm),
    (['f', 'b', 'p', 'u', 's', 'h', '3'], takesThree .fbpush3),
    (['f', 'b', 'l', 'o', 'a', 'd'], takesSome .fbload) ]

/-- The operands of a line, each a number. -/
def parseOperands (t : List Char) : Option (List Nat) :=
  if trimBlanks t = [] then some []
  else (splitCommas t).mapM fun part => parseNumber (trimBlanks part)

/-- The line a text spells, or none for a text with nothing but blanks and a comment: "`;` starts a comment that runs
to the end of the line" and "The mnemonic is case-insensitive" (R77). The errors and their order (an unknown mnemonic,
then an operand that is no number, then the count of operands, and only in `AsmLine.assemble` one that does not fit) are
the model's choice (DESIGN CHOICE, log entry 16). -/
def parseLine (text : List Char) : Except AsmError (Option AsmLine) :=
  let t := trimBlanks ((text.takeWhile (· != ';')).map Char.toLower)
  let mnemonic := t.takeWhile fun c => !isBlank c
  if mnemonic = [] then .ok none
  else
    match asmMnemonics.lookup mnemonic with
    | none => .error .unknownMnemonic
    | some build =>
      match parseOperands (t.dropWhile fun c => !isBlank c) with
      | none => .error .notANumber
      | some operands =>
        match build operands with
        | none => .error .operandCount
        | some l => .ok (some l)

/-- The words of one line of text. -/
def assembleText (text : List Char) : Except AsmError (List Word) :=
  match parseLine text with
  | .error e => .error e
  | .ok none => .ok []
  | .ok (some l) => l.assemble

end Sys2Proof
end

