-- ==== Sys2Proof/Machine/HostView.lean ====
section
/-! DEFINITION. What the host sees of the block (10_state.md R22, R23) and how it reads what it sees: the channels
(R33), the DecodedWord (40_checksum.md R104), ENCW's triplet (R105), the identifier (42_reassembler.md R166) and a
binary32 pattern (R163). No command depends on anything here. -/
namespace Sys2Proof.Machine

/-- The port's width in bits (R22). -/
def OutPort.width : OutPort → Nat
  | .status => 8
  | .errkind => 8
  | .valid => 1
  | .res => 32
  | .flen => 8
  | .dblen => 8
  | .db _ => 8
  | .strlen => 8
  | .snapv => 1
  | .snap _ => 32

/-- What an output port shows between two commands: absent where the port's condition fails, never "zero or a stale
byte" (R22, R23). FB's bytes have no port. -/
def observe (p : OutPort) (s : State) : Option (BitVec p.width) :=
  match p with
  | .status => some s.status
  | .errkind => some s.errkind
  | .valid => some (BitVec.ofBool s.valid)
  | .res => some s.res
  | .flen => some s.flen
  | .dblen => some s.dblen
  | .db i => s.db[i.val]?
  | .strlen => some s.strlen
  | .snapv => some (BitVec.ofBool s.snapv)
  | .snap c => s.snap.map fun v => v[c]

/-- The host's reading of a port: a fault where the output is absent (93_implementation_defined.md U1). It leaves the
block as it was (20_memory.md R63): it is no function to a state. -/
def hostRead (p : OutPort) (s : State) : Except Fault (BitVec p.width) :=
  match observe p s with
  | some v => .ok v
  | none => .error (.absentOutput p)

/-- The SNAP index of a channel (R33). -/
def Channel.index : Channel → Fin 10
  | .pm1p0 => 0
  | .pm2p5 => 1
  | .pm4p0 => 2
  | .pm10p0 => 3
  | .nc0p5 => 4
  | .nc1p0 => 5
  | .nc2p5 => 6
  | .nc4p0 => 7
  | .nc10p0 => 8
  | .typical => 9

/-- The pattern of a channel, absent before the first good measurement (R32, R33). -/
def channelPattern (c : Channel) (s : State) : Option Word := observe (.snap c.index) s

/-- The DecodedWord after TCHK, the pair (`RES[15:0]`, `VALID`) (00_scope.md R13, R104). -/
def decodedWord (s : State) : BitVec 16 × Bool := (s.res.extractLsb' 0 16, s.valid)

/-- ENCW's triplet in wire order: `RES[23:16], RES[15:8], RES[7:0]` (R105). -/
def encodedTriplet (res : Word) : Triplet :=
  ⟨res.extractLsb' 16 8, res.extractLsb' 8 8, res.extractLsb' 0 8⟩

/-- The identifier after DEC.ART or DEC.SER: `DB[0..STRLEN-1]`, raw bytes (R166, R167). While STRLEN exceeds DBLEN,
which a later DEC.ACI, DEC.DRDY or DEC.MEAS can bring about (10_state.md R31) and where the host must not use it
(70_reset_and_hazards.md R252), the bytes from DBLEN on are absent (R23) and the spec says no more of the string: that
this answers the bytes of DB that are present is the model's choice (DESIGN CHOICE, unsafe, log entry 15). -/
def identifier (s : State) : List Byte := s.db.take s.strlen.toNat

/-- What a binary32 pattern stands for (R163): a signed number (so that zero keeps its sign), an infinity, or a NaN. -/
inductive F32 where
  | number (negative : Bool) (magnitude : Rat)
  | infinity (negative : Bool)
  | nan (quiet : Bool)
  deriving DecidableEq, Repr

/-- `f32(p)`, the host's reading of a pattern; the block never computes it (R163, R12). -/
def f32 (p : Word) : F32 :=
  let negative := p.getLsbD 31
  let e : Nat := (p.extractLsb' 23 8).toNat
  let f : Nat := (p.extractLsb' 0 23).toNat
  if e = 255 then
    if f = 0 then .infinity negative else .nan (p.getLsbD 22)
  else if e = 0 then .number negative ((2 : Rat) ^ (-126 : Int) * (f / 2 ^ 23))
  else .number negative ((2 : Rat) ^ ((e : Int) - 127) * (1 + f / 2 ^ 23))

end Sys2Proof.Machine
end

