-- ==== Sys2Proof/Machine/Port.lean ====
section
/-! DEFINITION. The command port cycle by cycle (10_state.md R21, R24, 00_scope.md R8, 70_reset_and_hazards.md R240,
R241). The spec's model abstracts this away (R21), and `step` does; here the handshake stands beside it, for any
CMD_LATENCY, so that the abstraction can be stated and proved. No definition of the block uses this file. -/
namespace Sys2Proof.Machine

/-- The input ports during one cycle of `clk` (R21). -/
structure Pins where
  rst : Bool
  cmdValid : Bool
  cmd : Word
  deriving DecidableEq, Repr

/-- What the port is doing: `cmd_ready` is high in `ready`; in `busy` it is low while the accepted word executes, and
`left` cycles are to pass before the last one (R24, R8). -/
inductive Phase where
  | ready
  | busy (w : Word) (left : Nat)
  deriving DecidableEq, Repr

/-- The block and its command port. -/
structure PortState where
  block : State
  phase : Phase
  deriving DecidableEq, Repr

/-- After the reset cycle: the reset state, and `cmd_ready` is 1 (R36). -/
def PortState.reset : PortState := ⟨State.reset, .ready⟩

/-- `cmd_ready`: "low while `rst` is high" (R240), and from acceptance to completion (R24). -/
def cmdReady (pins : Pins) (p : PortState) : Bool := !pins.rst && p.phase == .ready

/-- The outputs by the port's phase: none while a command executes (R24, 93_implementation_defined.md U2), else the
registers (R22). It takes no pins and does not see `rst`: in a cycle with `rst` high and no command executing,
`cmd_ready` is low as well (R240), and there R22 ("at all times") and U2 ("while a command is executing") leave the
registers shown, but R24 gives the outputs no meaning. That it shows the registers in such a cycle is the model's
choice (DESIGN CHOICE, unsafe, log entry 14); `pinObserve` is the reading by R24's words. -/
def portObserve (o : OutPort) (p : PortState) : Option (BitVec o.width) :=
  match p.phase with
  | .ready => observe o p.block
  | .busy _ _ => none

/-- The outputs during one cycle, by R24's words: none whenever `cmd_ready` is low, under `rst` (R240) as during a
command. To take R24 before R22 and U2 there is the model's choice (DESIGN CHOICE, safe, log entry 14). -/
def pinObserve (pins : Pins) (o : OutPort) (p : PortState) : Option (BitVec o.width) :=
  if cmdReady pins p then portObserve o p else none

/-- The end of a command: its writes take effect together, and `cmd_ready` rises (R24). -/
def completeCommand (r : Result) : Host.Outcome PortState Fault Refusal :=
  match r with
  | .next b => .next ⟨b, .ready⟩
  | .fault f => .fault f
  | .refused e => .refused e

/-- One rising edge of `clk`: `rst` first, from any phase (R240, R241); else the word offered is accepted if the port
is ready (R21), and completes `latency` cycles later (R8). -/
def cycle (latency : Nat) (pins : Pins) (p : PortState) : Host.Outcome PortState Fault Refusal :=
  if pins.rst then .next ⟨resetBlock p.block, .ready⟩
  else
    match p.phase with
    | .ready => if pins.cmdValid then .next ⟨p.block, .busy pins.cmd (latency - 1)⟩ else .next p
    | .busy w 0 => completeCommand (runWord w p.block)
    | .busy w (left + 1) => .next ⟨p.block, .busy w left⟩

/-- The event that takes effect at this edge, if any: `rst`, or the command that completes. A command that `rst`
abandons is no event: "nothing of the abandoned command survives" (R241). -/
def edgeEvent (pins : Pins) (p : PortState) : List Input :=
  if pins.rst then [.rst]
  else
    match p.phase with
    | .ready => []
    | .busy w 0 => [.cmd w]
    | .busy _ (_ + 1) => []

/-- The cycles one after another, stopping at the first that answers no next state. -/
def runCycles (latency : Nat) : List Pins → PortState → Host.Outcome PortState Fault Refusal
  | [], p => .next p
  | pins :: rest, p =>
    match cycle latency pins p with
    | .next q => runCycles latency rest q
    | .fault f => .fault f
    | .refused e => .refused e

/-- The events that take effect along the cycles, in their order. -/
def cycleEvents (latency : Nat) : List Pins → PortState → List Input
  | [], _ => []
  | pins :: rest, p =>
    match cycle latency pins p with
    | .next q => edgeEvent pins p ++ cycleEvents latency rest q
    | .fault _ => []
    | .refused _ => []

end Sys2Proof.Machine
end

