-- ==== Sys2Proof/Safety.lean ====
section
/-! DEFINITION. What a safe run is: every step completes, and every state keeps the ranges the spec gives the
registers (10_state.md R25 to R31). -/
namespace Sys2Proof.Machine

/-- The ranges of the registers, in every state between two commands. -/
structure State.Inv (s : State) : Prop where
  /-- STATUS: "Values 6 to 255 are never written" (R25). -/
  status_le : s.status.toNat ≤ 5
  /-- ERRKIND: "Values 6 to 255 are never written" (R26). -/
  errkind_le : s.errkind.toNat ≤ 5
  /-- ERRKIND "is non-zero only after a DEC.* command whose frame failed checksum validation" (R26), and then always
  (R205). -/
  errkind_iff : s.errkind ≠ 0#8 ↔ s.status = 1#8
  /-- "VALID and STATUS agree on the verdict of the frame" (60_exceptions.md R211). -/
  valid_crcErr : s.status = 1#8 → s.valid = false
  /-- 0 ≤ FLEN ≤ 60 (R29). -/
  flen_le : s.fb.length ≤ Config.fbCap
  /-- 0 ≤ DBLEN ≤ 40 (R30). -/
  dblen_le : s.db.length ≤ Config.dbCap
  /-- "DBLEN is always even" (R30). -/
  dblen_even : s.db.length % 2 = 0
  /-- 0 ≤ STRLEN ≤ 32 (R31). -/
  strlen_le : s.strlen.toNat ≤ 32

/-- What the block can come to: reset, with any events to follow, and any number of steps. -/
inductive Reachable : State → Prop where
  | reset (es : List Input) : Reachable (setInputs es State.reset)
  | step {s t : State} : Reachable s → step s = .next t → Reachable t

/-- A safe run from `s`: `k` steps complete and end inside the registers' ranges. -/
def SafeRun (k : Nat) (s : State) : Prop := ∃ t, Sys2Proof.core.run k s = .next t ∧ t.Inv

end Sys2Proof.Machine
end

