-- ==== Sys2Proof/Certificates/Slice0/Obligations.lean ====
section
/-! DEFINITION. The statements for the provers, from the numbered rules of spec/. `Sys2Proof.Claims` holds the words
they share: each is written from the rule's own index form, not from the model's recursion. -/
namespace Sys2Proof.Claims

open Sys2Proof.Machine

/-- R74 and R75, on the fields: the OP values of no row, a reserved field that is not zero, a kind above 4. -/
def IllegalFields (op a b c : Nat) : Prop :=
  (0x04 ≤ op ∧ op ≤ 0x0F) ∨ (0x12 ≤ op ∧ op ≤ 0x1F) ∨ (0x22 ≤ op ∧ op ≤ 0x2F) ∨ 0x31 ≤ op ∨
  ((op = 0x00 ∨ op = 0x10 ∨ op = 0x20) ∧ (a ≠ 0 ∨ b ≠ 0 ∨ c ≠ 0)) ∨
  ((op = 0x01 ∨ op = 0x03) ∧ c ≠ 0) ∨
  ((op = 0x11 ∨ op = 0x21 ∨ op = 0x30) ∧ (b ≠ 0 ∨ c ≠ 0)) ∨
  (op = 0x21 ∧ 4 < a)

/-- The word is illegal under R74 or R75. -/
def IllegalByRule (w : Word) : Prop :=
  IllegalFields (opField w).toNat (aField w).toNat (bField w).toNat (cField w).toNat

/-- Triplet `t` of a frame matches its checksum, by index (R120, R121). -/
def TripletMatches (fb : List Byte) (t : Nat) : Prop :=
  crc8 (byteAt fb (3 * t)) (byteAt fb (3 * t + 1)) = byteAt fb (3 * t + 2)

/-- Every triplet `t = 0 .. n/3 - 1` matches (R121). -/
def AllMatch (fb : List Byte) : Prop := ∀ t, t < fb.length / 3 → TripletMatches fb t

/-- Extracted byte `j`: byte `2t` is FB[3t] and byte `2t+1` is FB[3t+1] (R122). -/
def dataByte (fb : List Byte) (j : Nat) : Byte := byteAt fb (3 * (j / 2) + j % 2)

/-- The `2n/3` extracted bytes (R122). -/
def dataBytes (fb : List Byte) : List Byte := (List.range (2 * fb.length / 3)).map (dataByte fb)

/-- Channel `c` of a frame: `{FB[6c], FB[6c+1], FB[6c+3], FB[6c+4]}` (R169, R55). -/
def frameChannel (fb : List Byte) (c : Fin 10) : Word :=
  byteAt fb (6 * c.val) ++ byteAt fb (6 * c.val + 1) ++ byteAt fb (6 * c.val + 3) ++ byteAt fb (6 * c.val + 4)

/-- `n` is the identifier's length: the index of the first 0x00 extracted byte, or their count (R166). -/
def IsAsciiLen (d : List Byte) (n : Nat) : Prop :=
  n ≤ d.length ∧ (∀ i, i < n → byteAt d i ≠ 0#8) ∧ (n < d.length → byteAt d n = 0#8)

/-- A DEC.* command (R38's four rows). -/
def isDec : Instr → Bool
  | .decArt | .decSer | .decAci | .decDrdy | .decMeas => true
  | .nop | .crc8 _ _ | .tchk _ _ _ | .encw _ _ | .fbclr | .fbpush _ | .verify | .reasm _ => false

/-- R38, column VALID. -/
def writesValid : Instr → Bool
  | .tchk _ _ _ | .verify | .decArt | .decSer | .decAci | .decDrdy | .decMeas => true
  | .nop | .crc8 _ _ | .encw _ _ | .fbclr | .fbpush _ | .reasm _ => false

/-- R38, column RES. -/
def writesRes : Instr → Bool
  | .crc8 _ _ | .tchk _ _ _ | .encw _ _ | .decAci | .decDrdy | .reasm _ => true
  | .nop | .fbclr | .fbpush _ | .verify | .decArt | .decSer | .decMeas => false

/-- R38, column FB/FLEN. -/
def writesFrame : Instr → Bool
  | .fbclr | .fbpush _ => true
  | .nop | .crc8 _ _ | .tchk _ _ _ | .encw _ _ | .verify | .decArt | .decSer | .decAci | .decDrdy | .decMeas
  | .reasm _ => false

/-- R38, column STRLEN. -/
def writesStrlen : Instr → Bool
  | .decArt | .decSer => true
  | .nop | .crc8 _ _ | .tchk _ _ _ | .encw _ _ | .fbclr | .fbpush _ | .verify | .decAci | .decDrdy | .decMeas
  | .reasm _ => false

/-- The number of the ErrorKind a command reports with CRC_ERR (R202). -/
def crcErrKind : Instr → BitVec 8
  | .decArt => 1#8
  | .decSer => 2#8
  | .decAci => 3#8
  | .decDrdy => 4#8
  | .decMeas => 5#8
  | .nop | .crc8 _ _ | .tchk _ _ _ | .encw _ _ | .fbclr | .fbpush _ | .verify | .reasm _ => 0#8

/-- `EXPLEN` of a DEC.* command (R123). -/
def expLenOf : Instr → Option Nat
  | .decArt => some 48
  | .decSer => some 48
  | .decAci => some 6
  | .decDrdy => some 3
  | .decMeas => some 60
  | .nop | .crc8 _ _ | .tchk _ _ _ | .encw _ _ | .fbclr | .fbpush _ | .verify | .reasm _ => none

/-- The length does not fit the command (R204). -/
def LenErrCause (i : Instr) (s : State) : Prop :=
  (i = .verify ∧ (s.fb.length = 0 ∨ s.fb.length % 3 ≠ 0)) ∨ (∃ n, expLenOf i = some n ∧ s.fb.length ≠ n)

/-- The length fits and some triplet fails (R205). -/
def CrcErrCause (i : Instr) (s : State) : Prop :=
  expLenOf i = some s.fb.length ∧ ∃ t, t < s.fb.length / 3 ∧ ¬ TripletMatches s.fb t

/-- The frame buffer is full (R206). -/
def OverflowCause (i : Instr) (s : State) : Prop := (∃ b, i = .fbpush b) ∧ s.fb.length = 60

/-- The group lies past the decoded data (R207). -/
def RangeErrCause (i : Instr) (s : State) : Prop := ∃ g : Byte, i = .reasm g ∧ s.db.length < 4 * g.toNat + 4

/-- What one event does to the bytes in FB (R51): cleared by `rst` and FBCLR, one more at the end by an FBPUSH that
does not overflow, untouched by everything else. -/
def frameAfter (fb : List Byte) (e : Input) : List Byte :=
  match e with
  | .rst => []
  | .cmd w =>
    match decode w with
    | .ok .fbclr => []
    | .ok (.fbpush b) => if fb.length = 60 then fb else fb ++ [b]
    | _ => fb

/-- A triplet's three bytes in wire order. -/
def wireBytes (t : Triplet) : List Byte := [t.hi, t.lo, t.chk]

/-- A 24-bit triplet as the number whose bits an error flips (95_test_vectors.md T-C28). -/
def tripletOfBits (v : BitVec 24) : Triplet := ⟨v.extractLsb' 16 8, v.extractLsb' 8 8, v.extractLsb' 0 8⟩

end Sys2Proof.Claims

section
open Sys2Proof
open Sys2Proof.Machine
open Sys2Proof.Claims

/-! ### Encoding -/

/-- 30_encoding.md R73, R77: no field of an encoded command is dropped or moved by the decoder. -/
def Obligations.DecodeOfEncodeIsTheCommand : Prop :=
  ∀ i : Instr, decode (encode i) = .ok i

/-- R76: a word that decodes is the encoding of what it decodes to, so each command has one word. -/
def Obligations.EncodeOfDecodedIsTheWord : Prop :=
  ∀ (w : Word) (i : Instr), decode w = .ok i → encode i = w

/-- R73, R76: a word selects exactly one row, and decodes to that row's command, or selects none and is illegal. -/
def Obligations.EveryWordSelectsItsRowOrIsIllegal : Prop :=
  ∀ w : Word,
    (∃ r i, opcodeTable.filter (·.selects w) = [r] ∧ decode w = .ok i ∧ i.mnemonic = r.mnemonic ∧ ¬ IllegalByRule w) ∨
    (opcodeTable.filter (·.selects w) = [] ∧ IllegalByRule w ∧ ∃ why, decode w = .error why)

/-- R73: words of 95_test_vectors.md, written out there from the encoding, decode to what they are listed as. The spec
has only that the last three words are illegal (60_exceptions.md R203 records nothing of the word); the names of the
reasons, `reservedNotZero`, `unknownKind` and `unassignedOp`, are the model's DESIGN CHOICE (log entry 12). -/
def Obligations.ListedWordsDecodeAsListed : Prop :=
  decode 0x00000000#32 = .ok .nop ∧ decode 0x01BEEF00#32 = .ok (.crc8 0xBE#8 0xEF#8) ∧
  decode 0x02BEEF92#32 = .ok (.tchk 0xBE#8 0xEF#8 0x92#8) ∧ decode 0x030E1000#32 = .ok (.encw 0x0E#8 0x10#8) ∧
  decode 0x10000000#32 = .ok .fbclr ∧ decode 0x11AB0000#32 = .ok (.fbpush 0xAB#8) ∧
  decode 0x20000000#32 = .ok .verify ∧ decode 0x21000000#32 = .ok .decArt ∧ decode 0x21010000#32 = .ok .decSer ∧
  decode 0x21020000#32 = .ok .decAci ∧ decode 0x21030000#32 = .ok .decDrdy ∧ decode 0x21040000#32 = .ok .decMeas ∧
  decode 0x30090000#32 = .ok (.reasm 9#8) ∧
  decode 0x01BEEF01#32 = .error .reservedNotZero ∧ decode 0x21050000#32 = .error .unknownKind ∧
  decode 0xFF000000#32 = .error .unassignedOp

/-! ### The step -/

/-- 10_state.md R20, R24: when the host's next event is a word that decodes to `i`, the step is `i`'s meaning, the
event being taken. -/
def Obligations.StepRunsTheDecodedCommand : Prop :=
  ∀ (s : State) (w : Word) (i : Instr) (rest : List Input),
    s.inputs = .cmd w :: rest → decode w = .ok i → step s = exec i { s with inputs := rest }

/-- 60_exceptions.md R203: exactly the words of R74 and R75 are illegal, and one reports ILLEGAL and changes nothing
else, in every state. -/
def Obligations.IllegalWordReportsIllegalAndNothingElse : Prop :=
  ∀ (s : State) (w : Word) (rest : List Input), s.inputs = .cmd w :: rest →
    (IllegalByRule w → step s = .next { s with inputs := rest, status := 3#8, errkind := 0#8 }) ∧
    (¬ IllegalByRule w → ∃ i, decode w = .ok i ∧ step s = exec i { s with inputs := rest })

/-- 10_state.md R20: the block never steps on its own. That a step with no event offered answers the same state is the
model's choice (log entry 2). -/
def Obligations.NothingOfferedChangesNothing : Prop :=
  ∀ s : State, s.inputs = [] → step s = .next s

/-- 10_state.md R36: the state after reset. `inputs` is the model's own field (log entry 1). -/
def Obligations.ResetStateHasTheStatedValues : Prop :=
  State.reset.status = 0#8 ∧ State.reset.errkind = 0#8 ∧ State.reset.valid = false ∧ State.reset.res = 0#32 ∧
  State.reset.flen = 0#8 ∧ State.reset.fb = [] ∧ State.reset.dblen = 0#8 ∧ State.reset.db = [] ∧
  State.reset.strlen = 0#8 ∧ State.reset.snapv = false ∧ State.reset.snap = none ∧
  ∀ pins : Pins, pins.rst = false → cmdReady pins PortState.reset = true

/-- 70_reset_and_hazards.md R240, in the model of commands: `rst` is a transition to the reset state from any state.
What the host offers afterwards (log entry 1) stays. -/
def Obligations.RstStepAnswersTheResetState : Prop :=
  ∀ (s : State) (rest : List Input), s.inputs = .rst :: rest → step s = .next { State.reset with inputs := rest }

/-- 60_exceptions.md R212: no state stops the block. Whatever the registers hold, whichever event comes, the step
answers a next state and takes exactly one event. -/
def Obligations.EveryStepAnswersANextState : Prop :=
  ∀ s : State, ∃ t, step s = .next t ∧ t.inputs = s.inputs.tail

/-! ### The checksum -/

/-- 40_checksum.md R101: the masked form equals the source's unbounded form. -/
def Obligations.Crc8EqualsTheUnboundedAccumulatorForm : Prop :=
  ∀ hi lo : Byte, (crc8 hi lo).toNat = crc8Wide hi lo

/-- R102: the two laws of the checksum, its form by `T`, and the 256 pre-images of each value. -/
def Obligations.Crc8IsABijectionInEachByte : Prop :=
  (∀ hi : Byte, Function.Bijective fun lo => crc8 hi lo) ∧
  (∀ lo : Byte, Function.Bijective fun hi => crc8 hi lo) ∧
  (∀ hi lo lo' : Byte, lo ≠ lo' → crc8 hi lo ≠ crc8 hi lo') ∧
  (∀ v : Byte, Nat.card { w : Byte × Byte // crc8 w.1 w.2 = v } = 256) ∧
  Function.Bijective crcStep ∧
  (∀ hi lo : Byte, crc8 hi lo = crcStep (crcStep (0xFF#8 ^^^ hi) ^^^ lo))

/-- 95_test_vectors.md 2.2, T-C25: the checksum is the reference table's, for every word. -/
def Obligations.Crc8EqualsTheReferenceTable : Prop :=
  ∀ hi lo : Byte, crc8 hi lo = crc8Table hi lo

/-- 95_test_vectors.md T-C28: every single-bit error in a valid triplet makes TCHK report VALID = 0. -/
def Obligations.SingleBitErrorIsAlwaysDetected : Prop :=
  ∀ (v : BitVec 24) (k : Nat) (s : State), k < 24 → (tripletOfBits v).ok = true →
    let e := tripletOfBits (v ^^^ (1#24 <<< k))
    ∃ t, exec (.tchk e.hi e.lo e.chk) s = .next t ∧ t.valid = false

/-! ### The checksum engine's commands -/

/-- R103. The result is stated by the reference table. -/
def Obligations.Crc8CommandWritesTheChecksum : Prop :=
  ∀ (hi lo : Byte) (s : State),
    decode (0x01#8 ++ hi ++ lo ++ 0x00#8) = .ok (.crc8 hi lo) ∧
    exec (.crc8 hi lo) s =
      .next { s with res := (crc8Table hi lo).setWidth 32, status := 0#8, errkind := 0#8 } ∧
    (∀ c : Byte, c ≠ 0#8 → ∃ why, decode (0x01#8 ++ hi ++ lo ++ c) = .error why) ∧
    crc8Table 0x00#8 0x00#8 = 0x81#8 ∧ crc8Table 0xFF#8 0x00#8 = 0x00#8 ∧ crc8Table 0xBE#8 0xEF#8 = 0x92#8

/-- R104. The verdict is stated by the reference table; RES gets the word whether or not it is valid. -/
def Obligations.TchkValidatesOneTriplet : Prop :=
  ∀ (hi lo chk : Byte) (s : State),
    decode (0x02#8 ++ hi ++ lo ++ chk) = .ok (.tchk hi lo chk) ∧
    exec (.tchk hi lo chk) s =
      .next { s with
        res := 0x00#8 ++ 0x00#8 ++ hi ++ lo
        valid := decide (crc8Table hi lo = chk)
        status := 0#8
        errkind := 0#8 } ∧
    (∀ t, exec (.tchk hi lo chk) s = .next t → decodedWord t = (hi ++ lo, decide (crc8Table hi lo = chk))) ∧
    crc8Table 0x00#8 0x00#8 = 0x81#8 ∧ crc8Table 0xFF#8 0x00#8 = 0x00#8

/-- R105: the triplet's bytes in wire order are RES[23:16], RES[15:8], RES[7:0]. -/
def Obligations.EncwBuildsOneTriplet : Prop :=
  ∀ (hi lo : Byte) (s : State),
    decode (0x03#8 ++ hi ++ lo ++ 0x00#8) = .ok (.encw hi lo) ∧
    (∀ c : Byte, c ≠ 0#8 → ∃ why, decode (0x03#8 ++ hi ++ lo ++ c) = .error why) ∧
    ∃ t, exec (.encw hi lo) s = .next t ∧
      t = { s with res := 0x00#8 ++ hi ++ lo ++ crc8Table hi lo, status := 0#8, errkind := 0#8 } ∧
      t.res.extractLsb' 24 8 = 0#8 ∧ encodedTriplet t.res = ⟨hi, lo, crc8Table hi lo⟩

/-- R106: ENCW's result depends on its operands alone, whatever the two states hold. -/
def Obligations.EncwReadsNoState : Prop :=
  ∀ (hi lo : Byte) (s s' : State),
    ∃ t t', exec (.encw hi lo) s = .next t ∧ exec (.encw hi lo) s' = .next t' ∧ t.res = t'.res

/-! ### The frame decoder's commands -/

/-- R126. -/
def Obligations.NopReportsOkAndNothingElse : Prop :=
  decode 0x00000000#32 = .ok .nop ∧
  (∀ a b c : Byte, a ≠ 0#8 ∨ b ≠ 0#8 ∨ c ≠ 0#8 → ∃ why, decode (0x00#8 ++ a ++ b ++ c) = .error why) ∧
  ∀ s : State, exec .nop s = .next { s with status := 0#8, errkind := 0#8 }

/-- R127. -/
def Obligations.FbclrEmptiesTheFrameBuffer : Prop :=
  decode 0x10000000#32 = .ok .fbclr ∧
  ∀ s : State, exec .fbclr s = .next { s with fb := [], status := 0#8, errkind := 0#8 }

/-- R128, R206: a byte onto the end, or OVERFLOW with the byte dropped at 60 bytes. -/
def Obligations.FbpushAppendsOrOverflows : Prop :=
  ∀ (b : Byte) (s : State),
    decode (0x11#8 ++ b ++ 0x00#8 ++ 0x00#8) = .ok (.fbpush b) ∧
    (s.fb.length = 60 → exec (.fbpush b) s = .next { s with status := 4#8, errkind := 0#8 }) ∧
    (s.fb.length ≠ 60 → exec (.fbpush b) s = .next { s with fb := s.fb ++ [b], status := 0#8, errkind := 0#8 })

/-- R129: LEN_ERR with VALID unchanged, or the verdict over every triplet in VALID. -/
def Obligations.VerifyChecksEveryTriplet : Prop :=
  decode 0x20000000#32 = .ok .verify ∧
  ∀ s : State,
    ((s.fb.length = 0 ∨ s.fb.length % 3 ≠ 0) → exec .verify s = .next { s with status := 2#8, errkind := 0#8 }) ∧
    (s.fb.length ≠ 0 → s.fb.length % 3 = 0 → AllMatch s.fb →
      exec .verify s = .next { s with valid := true, status := 0#8, errkind := 0#8 }) ∧
    (s.fb.length ≠ 0 → s.fb.length % 3 = 0 → ¬ AllMatch s.fb →
      exec .verify s = .next { s with valid := false, status := 0#8, errkind := 0#8 })

/-- R130, R166, R167. -/
def Obligations.DecArtDecodesAnArticleCode : Prop :=
  decode 0x21000000#32 = .ok .decArt ∧
  ∀ s : State,
    (s.fb.length ≠ 48 → exec .decArt s = .next { s with status := 2#8, errkind := 0#8 }) ∧
    (s.fb.length = 48 → ¬ AllMatch s.fb →
      exec .decArt s = .next { s with valid := false, status := 1#8, errkind := 1#8 }) ∧
    (s.fb.length = 48 → AllMatch s.fb →
      ∃ n, IsAsciiLen (dataBytes s.fb) n ∧ n ≤ 32 ∧ exec .decArt s =
        .next { s with
          db := dataBytes s.fb, valid := true, strlen := BitVec.ofNat 8 n, status := 0#8, errkind := 0#8 })

/-- R131, R166, R167. -/
def Obligations.DecSerDecodesASerialNumber : Prop :=
  decode 0x21010000#32 = .ok .decSer ∧
  ∀ s : State,
    (s.fb.length ≠ 48 → exec .decSer s = .next { s with status := 2#8, errkind := 0#8 }) ∧
    (s.fb.length = 48 → ¬ AllMatch s.fb →
      exec .decSer s = .next { s with valid := false, status := 1#8, errkind := 2#8 }) ∧
    (s.fb.length = 48 → AllMatch s.fb →
      ∃ n, IsAsciiLen (dataBytes s.fb) n ∧ n ≤ 32 ∧ exec .decSer s =
        .next { s with
          db := dataBytes s.fb, valid := true, strlen := BitVec.ofNat 8 n, status := 0#8, errkind := 0#8 })

/-- R132: the six bytes written out. -/
def Obligations.DecAciDecodesAnInterval : Prop :=
  decode 0x21020000#32 = .ok .decAci ∧
  (∀ s : State, s.fb.length ≠ 6 → exec .decAci s = .next { s with status := 2#8, errkind := 0#8 }) ∧
  ∀ (s : State) (b3 b2 c1 b1 b0 c0 : Byte), s.fb = [b3, b2, c1, b1, b0, c0] →
    ((crc8 b3 b2 ≠ c1 ∨ crc8 b1 b0 ≠ c0) →
      exec .decAci s = .next { s with valid := false, status := 1#8, errkind := 3#8 }) ∧
    (crc8 b3 b2 = c1 → crc8 b1 b0 = c0 →
      exec .decAci s =
        .next { s with
          db := [b3, b2, b1, b0], valid := true, res := b3 ++ b2 ++ b1 ++ b0, status := 0#8, errkind := 0#8 })

/-- R133, R168: the three bytes written out. -/
def Obligations.DecDrdyDecodesTheFlag : Prop :=
  decode 0x21030000#32 = .ok .decDrdy ∧
  (∀ s : State, s.fb.length ≠ 3 → exec .decDrdy s = .next { s with status := 2#8, errkind := 0#8 }) ∧
  ∀ (s : State) (b1 b0 c : Byte), s.fb = [b1, b0, c] →
    (crc8 b1 b0 ≠ c → exec .decDrdy s = .next { s with valid := false, status := 1#8, errkind := 4#8 }) ∧
    (crc8 b1 b0 = c → b0 = 0#8 →
      exec .decDrdy s =
        .next { s with db := [b1, b0], valid := true, res := 0#32, status := 0#8, errkind := 0#8 }) ∧
    (crc8 b1 b0 = c → b0 ≠ 0#8 →
      exec .decDrdy s =
        .next { s with db := [b1, b0], valid := true, res := 1#32, status := 0#8, errkind := 0#8 })

/-- R134, R169: each channel by its own frame bytes, all ten and SNAPV in the one step. -/
def Obligations.DecMeasCommitsTenChannels : Prop :=
  decode 0x21040000#32 = .ok .decMeas ∧
  ∀ s : State,
    (s.fb.length ≠ 60 → exec .decMeas s = .next { s with status := 2#8, errkind := 0#8 }) ∧
    (s.fb.length = 60 → ¬ AllMatch s.fb →
      exec .decMeas s = .next { s with valid := false, status := 1#8, errkind := 5#8 }) ∧
    (s.fb.length = 60 → AllMatch s.fb →
      exec .decMeas s =
        .next { s with
          db := dataBytes s.fb, valid := true, snap := some (Vector.ofFn (frameChannel s.fb))
          status := 0#8, errkind := 0#8 })

/-- 42_reassembler.md R169, 10_state.md R33: after a DEC.MEAS that reports OK each channel, in the source's order, shows
its own four frame bytes, and its two checksums held. -/
def Obligations.ChannelsComeFromTheirFrameBytes : Prop :=
  ∀ (s t : State) (c : Channel), exec .decMeas s = .next t → t.status = 0#8 →
    let n : Fin 10 := match c with
      | .pm1p0 => 0 | .pm2p5 => 1 | .pm4p0 => 2 | .pm10p0 => 3 | .nc0p5 => 4 | .nc1p0 => 5 | .nc2p5 => 6
      | .nc4p0 => 7 | .nc10p0 => 8 | .typical => 9
    channelPattern c t = some (frameChannel s.fb n) ∧
    crc8 (byteAt s.fb (6 * n.val)) (byteAt s.fb (6 * n.val + 1)) = byteAt s.fb (6 * n.val + 2) ∧
    crc8 (byteAt s.fb (6 * n.val + 3)) (byteAt s.fb (6 * n.val + 4)) = byteAt s.fb (6 * n.val + 5)

/-- R121: validity is the AND over every triplet, by index, for every frame of whole triplets. -/
def Obligations.FrameValidityIsTheAndOverAllTriplets : Prop :=
  ∀ fb : List Byte, fb.length % 3 = 0 → (allTriplets fb = true ↔ ∀ t, t < fb.length / 3 → TripletMatches fb t)

/-- R122: length 2n/3; byte 2t is FB[3t], byte 2t+1 is FB[3t+1]. -/
def Obligations.ExtractTakesTheDataBytesInOrder : Prop :=
  ∀ fb : List Byte, fb.length % 3 = 0 →
    (extract fb).length = 2 * fb.length / 3 ∧
    ∀ t, t < fb.length / 3 →
      (extract fb)[2 * t]? = fb[3 * t]? ∧ (extract fb)[2 * t + 1]? = fb[3 * t + 1]?

/-- R125: one failing triplet, wherever it stands, leaves DB, DBLEN, STRLEN, RES and SNAP at their old values, for
every kind. -/
def Obligations.OneBadTripletFailsTheWholeFrame : Prop :=
  ∀ (i : Instr) (s : State) (t : Nat), expLenOf i = some s.fb.length → t < s.fb.length / 3 →
    ¬ TripletMatches s.fb t →
    exec i s = .next { s with valid := false, status := 1#8, errkind := crcErrKind i }

/-- R123: each kind's row. -/
def Obligations.EachKindHasItsRow : Prop :=
  ∀ k : Kind,
    encode k.instr = (match k with
      | .art => 0x21000000#32 | .ser => 0x21010000#32 | .aci => 0x21020000#32 | .drdy => 0x21030000#32
      | .meas => 0x21040000#32) ∧
    k.expLen = (match k with | .art => 48 | .ser => 48 | .aci => 6 | .drdy => 3 | .meas => 60) ∧
    k.errorKind.code = (match k with | .art => 1#8 | .ser => 2#8 | .aci => 3#8 | .drdy => 4#8 | .meas => 5#8) ∧
    ∀ fb : List Byte, fb.length = k.expLen →
      (extract fb).length = (match k with | .art => 32 | .ser => 32 | .aci => 4 | .drdy => 2 | .meas => 40)

/-! ### The reassembler -/

/-- 42_reassembler.md R160: the first of the four bytes is the most significant, and nothing is lost. -/
def Obligations.Be32IsBigEndian : Prop :=
  ∀ (d : List Byte) (i : Nat), i + 4 ≤ d.length →
    ∃ b3 b2 b1 b0 : Byte, d[i]? = some b3 ∧ d[i + 1]? = some b2 ∧ d[i + 2]? = some b1 ∧ d[i + 3]? = some b0 ∧
      be32 d i = b3 ++ b2 ++ b1 ++ b0 ∧
      (be32 d i).toNat = b3.toNat * 2 ^ 24 + b2.toNat * 2 ^ 16 + b1.toNat * 2 ^ 8 + b0.toNat

/-- R170, R207. -/
def Obligations.ReasmReadsOneGroup : Prop :=
  ∀ (g : Byte) (s : State),
    decode (0x30#8 ++ g ++ 0x00#8 ++ 0x00#8) = .ok (.reasm g) ∧
    (4 * g.toNat + 4 > s.db.length → exec (.reasm g) s = .next { s with status := 5#8, errkind := 0#8 }) ∧
    (4 * g.toNat + 4 ≤ s.db.length →
      exec (.reasm g) s = .next { s with
        res := byteAt s.db (4 * g.toNat) ++ byteAt s.db (4 * g.toNat + 1) ++ byteAt s.db (4 * g.toNat + 2) ++
          byteAt s.db (4 * g.toNat + 3)
        status := 0#8
        errkind := 0#8 })

/-- R170: "After DEC.MEAS, `REASM c` equals `SNAP[c]`. After DEC.ACI, `REASM 0` equals the RES that DEC.ACI wrote." -/
def Obligations.ReasmAgreesWithTheDecodedValues : Prop :=
  (∀ (s t : State) (c : Fin 10), exec .decMeas s = .next t → t.status = 0#8 →
    ∃ v u, t.snap = some v ∧ exec (.reasm (BitVec.ofNat 8 c.val)) t = .next u ∧ u.status = 0#8 ∧ u.res = v[c]) ∧
  ∀ s t : State, exec .decAci s = .next t → t.status = 0#8 →
    (∃ u, exec (.reasm 0#8) t = .next u ∧ u.status = 0#8 ∧ u.res = t.res) ∧
    ∃ u, exec (.reasm 1#8) t = .next u ∧ u.status = 5#8 ∧ u.res = t.res

/-- 42_reassembler.md R161, S3: the triplets that two ENCW build of the two halves of any 32-bit interval decode, by
DEC.ACI, to that interval. -/
def Obligations.EncodedIntervalDecodesToItself : Prop :=
  ∀ (v : Word) (s : State),
    ∃ t t', exec (.encw (v.extractLsb' 24 8) (v.extractLsb' 16 8)) s = .next t ∧
      exec (.encw (v.extractLsb' 8 8) (v.extractLsb' 0 8)) s = .next t' ∧
      ∀ u : State, u.fb = wireBytes (encodedTriplet t.res) ++ wireBytes (encodedTriplet t'.res) →
        ∃ u', exec .decAci u = .next u' ∧ u'.res = v ∧ u'.valid = true ∧ u'.status = 0#8 ∧ u'.errkind = 0#8

/-- 42_reassembler.md R166: after a DEC.ART or DEC.SER that reports OK, the identifier is the extracted bytes before
the first 0x00, raw. -/
def Obligations.IdentifierStopsAtTheFirstZeroByte : Prop :=
  ∀ (i : Instr) (s t : State), (i = .decArt ∨ i = .decSer) → exec i s = .next t → t.status = 0#8 →
    identifier t = (dataBytes s.fb).takeWhile fun b => b != 0#8

/-! ### What a command may write -/

/-- 10_state.md R38: the table of writes, for a command that reports OK, and what any other report writes. -/
def Obligations.CommandsWriteOnlyTheirColumns : Prop :=
  ∀ (i : Instr) (s t : State), exec i s = .next t →
    t.inputs = s.inputs ∧
    (writesValid i = false → t.valid = s.valid) ∧
    (writesRes i = false → t.res = s.res) ∧
    (writesFrame i = false → t.fb = s.fb) ∧
    (isDec i = false → t.db = s.db) ∧
    (writesStrlen i = false → t.strlen = s.strlen) ∧
    (i ≠ .decMeas → t.snap = s.snap) ∧
    (t.status ≠ 0#8 →
      t = { s with status := t.status, errkind := t.errkind, valid := if t.status = 1#8 then false else s.valid } ∧
      (t.status = 1#8 → isDec i = true))

/-- 60_exceptions.md R210, for the whole step on a command word, the illegal ones too. -/
def Obligations.AnErrorWritesNoResult : Prop :=
  ∀ (s t : State) (w : Word) (rest : List Input), s.inputs = .cmd w :: rest → step s = .next t →
    (t.status = 2#8 ∨ t.status = 3#8 ∨ t.status = 4#8 ∨ t.status = 5#8 →
      t = { s with inputs := rest, status := t.status, errkind := t.errkind }) ∧
    (t.status = 1#8 →
      t = { s with inputs := rest, status := t.status, errkind := t.errkind, valid := false })

/-- 20_memory.md R51, 10_state.md R29: no command but FBCLR changes a byte that stands in FB. -/
def Obligations.PushedBytesStayUntilCleared : Prop :=
  ∀ (i : Instr) (s t : State) (j : Nat), exec i s = .next t → i ≠ .fbclr → j < s.fb.length →
    t.fb[j]? = s.fb[j]?

/-! ### Status -/

/-- 60_exceptions.md R201, R202: every command reports, and ERRKIND is the command's ErrorKind exactly on CRC_ERR. -/
def Obligations.ErrkindNamesTheFailedRead : Prop :=
  ∀ (i : Instr) (s : State), ∃ t, exec i s = .next t ∧ t.status.toNat ≤ 5 ∧
    (t.status = 1#8 → t.errkind = crcErrKind i ∧ isDec i = true) ∧
    (t.status ≠ 1#8 → t.errkind = 0#8)

/-- R200, R209: which status a command reports, by its causes. -/
def Obligations.StatusIsReportedForItsCause : Prop :=
  ∀ (i : Instr) (s : State), ∃ t, exec i s = .next t ∧
    (t.status = 1#8 ↔ CrcErrCause i s) ∧
    (t.status = 2#8 ↔ LenErrCause i s) ∧
    t.status ≠ 3#8 ∧
    (t.status = 4#8 ↔ OverflowCause i s) ∧
    (t.status = 5#8 ↔ RangeErrCause i s) ∧
    (t.status = 0#8 ↔ ¬ CrcErrCause i s ∧ ¬ LenErrCause i s ∧ ¬ OverflowCause i s ∧ ¬ RangeErrCause i s)

/-! ### The whole machine -/

/-- 10_state.md R25 to R31: the registers' ranges hold at reset, whatever the host will offer. -/
def Obligations.RegisterRangesHoldAtReset : Prop :=
  State.reset.Inv ∧ ∀ es : List Input, ({ State.reset with inputs := es } : State).Inv

/-- R25 to R31: every step, on any event, keeps the registers' ranges. -/
def Obligations.EveryStepKeepsTheRegisterRanges : Prop :=
  ∀ s t : State, s.Inv → step s = .next t → t.Inv

/-- R25 to R31, 60_exceptions.md R212: every run completes and stays inside the registers' ranges, and so does every
state that reset and any events lead to. -/
def Obligations.EveryRunIsSafe : Prop :=
  (∀ (k : Nat) (s : State), s.Inv → SafeRun k s) ∧ ∀ s : State, Reachable s → s.Inv

/-- R30, R123: DB's length stays 0 or that of a kind. -/
def Obligations.DataLengthIsAKindsLength : Prop :=
  ∀ s t : State, s.db.length ∈ [0, 2, 4, 32, 40] → step s = .next t → t.db.length ∈ [0, 2, 4, 32, 40]

/-- 10_state.md R32, 20_memory.md R62: SNAP changes in no step but `rst`, which clears it, and a DEC.MEAS that reports
OK, which writes all ten channels of the frame. -/
def Obligations.OnlyAGoodMeasurementOrResetChangesTheSnapshot : Prop :=
  ∀ s t : State, step s = .next t → t.snap ≠ s.snap →
    (∃ rest, s.inputs = .rst :: rest ∧ t.snap = none) ∨
    (∃ w rest, s.inputs = .cmd w :: rest ∧ decode w = .ok .decMeas ∧ t.status = 0#8 ∧
      s.fb.length = 60 ∧ AllMatch s.fb ∧ t.snap = some (Vector.ofFn (frameChannel s.fb)))

/-- 20_memory.md R51: after any events at all, FB holds the bytes pushed since the last FBCLR or reset, in push order
(a byte that overflows is not pushed, R206). -/
def Obligations.FrameBufferHoldsTheBytesPushedSinceCleared : Prop :=
  ∀ (es : List Input) (s : State), s.inputs = es →
    ∃ t, Sys2Proof.core.run es.length s = .next t ∧ t.fb = es.foldl frameAfter s.fb

/-- 20_memory.md R63: CRC8, TCHK, ENCW, VERIFY and REASM repeated give the same outputs, and FBPUSH appends a second
byte. -/
def Obligations.RepeatedQueriesGiveTheSameOutputs : Prop :=
  (∀ (i : Instr) (s : State),
    ((∃ hi lo, i = .crc8 hi lo) ∨ (∃ hi lo chk, i = .tchk hi lo chk) ∨ (∃ hi lo, i = .encw hi lo) ∨ i = .verify ∨
      ∃ g, i = .reasm g) →
    ∃ t, exec i s = .next t ∧ exec i t = .next t) ∧
  ∀ (b : Byte) (s : State), s.fb.length < 59 →
    ∃ t u, exec (.fbpush b) s = .next t ∧ exec (.fbpush b) t = .next u ∧ u.fb = s.fb ++ [b, b]

/-- 10_state.md R37: the new registers depend on the old ones and the event alone, not on what the host offers later.
The events to come are the model's own field (log entry 1). -/
def Obligations.LaterEventsDoNotReachAStep : Prop :=
  ∀ (s s' t : State) (e : Input) (rest rest' : List Input), s.inputs = e :: rest →
    s' = { s with inputs := e :: rest' } → step s = .next t → step s' = .next { t with inputs := rest' }

/-! ### The outputs -/

/-- 10_state.md R22: the ports that always show a register, and the two banks while their condition holds. -/
def Obligations.OutputPortsShowTheRegisters : Prop :=
  ∀ s : State,
    observe .status s = some s.status ∧ observe .errkind s = some s.errkind ∧
    observe .valid s = some (if s.valid then 1#1 else 0#1) ∧ observe .res s = some s.res ∧
    observe .flen s = some (BitVec.ofNat 8 s.fb.length) ∧ observe .dblen s = some (BitVec.ofNat 8 s.db.length) ∧
    observe .strlen s = some s.strlen ∧
    (∀ i : Fin 40, i.val < s.db.length → observe (.db i) s = s.db[i.val]?) ∧
    (s.snap = none → observe .snapv s = some 0#1) ∧
    (∀ v : Vector Word 10, s.snap = some v →
      observe .snapv s = some 1#1 ∧ ∀ c : Fin 10, observe (.snap c) s = some v[c])

/-- 10_state.md R23: a conditional output is absent exactly when its condition fails. That the host's reading of an
absent one is a fault of its own name is no rule: R23 says only that the host gets a value the spec does not define, and
the model's `absentOutput` is DEDUCED from 93_implementation_defined.md U1 (log entry 10). -/
def Obligations.ConditionalOutputsAreAbsent : Prop :=
  ∀ s : State,
    (∀ i : Fin 40, s.db.length ≤ i.val → observe (.db i) s = none ∧ hostRead (.db i) s = .error (.absentOutput (.db i))) ∧
    (∀ i : Fin 40, i.val < s.db.length → observe (.db i) s = some (byteAt s.db i.val)) ∧
    (∀ c : Fin 10, s.snap = none → observe (.snap c) s = none ∧ hostRead (.snap c) s = .error (.absentOutput (.snap c))) ∧
    (∀ (c : Fin 10) (v : Vector Word 10), s.snap = some v → observe (.snap c) s = some v[c])

/-- R22: FB's bytes are not outputs, and no command but VERIFY and DEC.* carries them to one: two states that differ in
FB's bytes alone show the same after it. -/
def Obligations.FrameBytesReachNoOtherCommandsOutputs : Prop :=
  ∀ (i : Instr) (s s' : State), i ≠ .verify → isDec i = false → s' = { s with fb := s'.fb } →
    s'.fb.length = s.fb.length →
    ∃ t t', exec i s = .next t ∧ exec i s' = .next t' ∧ ∀ p : OutPort, observe p t = observe p t'

/-! ### The command port, cycle by cycle -/

/-- 10_state.md R24, 00_scope.md R8: an accepted word completes CMD_LATENCY cycles later, all its writes at once;
until then `cmd_ready` is low, the block's registers stand, and no output means anything. R24 counts no cycles: that the
command completes at the edge exactly CMD_LATENCY cycles after the one that accepts it, with one latency for every
command, is the model's DESIGN CHOICE over R8 (log entry 5). The last clause reads `portObserve`, which takes no pins
and shows the registers under a high `rst` as well, the model's choice (log entry 14). -/
def Obligations.AcceptedCommandCompletesAfterTheLatency : Prop :=
  ∀ (latency : Nat) (b : State) (w : Word) (pins : Pins) (waiting : List Pins), 0 < latency →
    pins.rst = false → pins.cmdValid = true → pins.cmd = w → (∀ x ∈ waiting, x.rst = false) →
    (waiting.length < latency →
      ∃ p, runCycles latency (pins :: waiting) ⟨b, .ready⟩ = .next p ∧ p.block = b ∧
        (∀ x, cmdReady x p = false) ∧ ∀ o, portObserve o p = none) ∧
    (waiting.length = latency →
      ∃ t, runWord w b = .next t ∧ runCycles latency (pins :: waiting) ⟨b, .ready⟩ = .next ⟨t, .ready⟩ ∧
        (∀ o, portObserve o ⟨t, .ready⟩ = observe o t))

/-- 70_reset_and_hazards.md R240, at the pins. -/
def Obligations.RstAtAClockEdgeResetsEveryRegister : Prop :=
  ∀ (latency : Nat) (pins : Pins) (p : PortState), pins.rst = true →
    cmdReady pins p = false ∧
    cycle latency pins p = .next ⟨{ State.reset with inputs := p.block.inputs }, .ready⟩ ∧
    (∀ next : Pins, next.rst = false →
      cmdReady next ⟨{ State.reset with inputs := p.block.inputs }, .ready⟩ = true ∧
      (next.cmdValid = true →
        cycle latency next ⟨{ State.reset with inputs := p.block.inputs }, .ready⟩ =
          .next ⟨{ State.reset with inputs := p.block.inputs }, .busy next.cmd (latency - 1)⟩)) ∧
    (∀ s : State, s.inputs = [.rst] → step s = .next State.reset)

/-- R241: a reset during a command abandons it: the state after is the reset state whatever the word was and however
far it had come, and the word is no event. -/
def Obligations.RstAbandonsACommandInFlight : Prop :=
  ∀ (latency left : Nat) (w : Word) (pins : Pins) (b : State), pins.rst = true →
    cycle latency pins ⟨b, .busy w left⟩ = .next ⟨{ State.reset with inputs := b.inputs }, .ready⟩ ∧
    edgeEvent pins ⟨b, .busy w left⟩ = [.rst]

/-- 10_state.md R21, R24, 20_memory.md R66: along any cycles, for any CMD_LATENCY, the block's registers are those the
steps leave on the events that take effect, in their order: the spec may abstract the handshake away. The list of events
and the count of cycles are the model's (log entries 1, 4 and 5). -/
def Obligations.CyclesRefineTheSteps : Prop :=
  ∀ (latency : Nat) (pins : List Pins) (p : PortState), p.block.inputs = [] →
    ∃ q, runCycles latency pins p = .next q ∧
      Sys2Proof.core.run (cycleEvents latency pins p).length
        { p.block with inputs := cycleEvents latency pins p } = .next q.block

/-! ### The assembler and the host's reading -/

/-- 30_encoding.md R77: each line of its table and its word, and each operand that does not fit. R77 says that such an
operand is an assembly error; the error's name `doesNotFit` is the model's choice (log entry 16). -/
def Obligations.AssembledWordsAreTheListedOnes : Prop :=
  ((AsmLine.nop).assemble = .ok [0x00000000#32] ∧ (AsmLine.fbclr).assemble = .ok [0x10000000#32] ∧
    (AsmLine.verify).assemble = .ok [0x20000000#32] ∧
    (AsmLine.dec .art).assemble = .ok [0x21000000#32] ∧ (AsmLine.dec .ser).assemble = .ok [0x21010000#32] ∧
    (AsmLine.dec .aci).assemble = .ok [0x21020000#32] ∧ (AsmLine.dec .drdy).assemble = .ok [0x21030000#32] ∧
    (AsmLine.dec .meas).assemble = .ok [0x21040000#32]) ∧
  (∀ hi lo chk : Nat, hi < 256 → lo < 256 → chk < 256 →
    (AsmLine.crc8 hi lo).assemble = .ok [BitVec.ofNat 32 (0x01000000 + hi * 0x10000 + lo * 0x100)] ∧
    (AsmLine.tchk hi lo chk).assemble = .ok [BitVec.ofNat 32 (0x02000000 + hi * 0x10000 + lo * 0x100 + chk)] ∧
    (AsmLine.encw hi lo).assemble = .ok [BitVec.ofNat 32 (0x03000000 + hi * 0x10000 + lo * 0x100)] ∧
    (AsmLine.fbpush hi).assemble = .ok [BitVec.ofNat 32 (0x11000000 + hi * 0x10000)] ∧
    (AsmLine.reasm hi).assemble = .ok [BitVec.ofNat 32 (0x30000000 + hi * 0x10000)]) ∧
  (∀ n m k : Nat, 256 ≤ n →
    (AsmLine.crc8 n m).assemble = .error .doesNotFit ∧ (AsmLine.crc8 m n).assemble = .error .doesNotFit ∧
    (AsmLine.tchk n m k).assemble = .error .doesNotFit ∧ (AsmLine.tchk m n k).assemble = .error .doesNotFit ∧
    (AsmLine.tchk m k n).assemble = .error .doesNotFit ∧
    (AsmLine.encw n m).assemble = .error .doesNotFit ∧ (AsmLine.encw m n).assemble = .error .doesNotFit ∧
    (AsmLine.fbpush n).assemble = .error .doesNotFit ∧ (AsmLine.reasm n).assemble = .error .doesNotFit)

/-- R78: the pseudo-instructions' expansions, and the effect of `pushw` with the host's reading of RES between. That
`fbload` takes at least one byte is the model's choice (log entry 11); what a longer or an empty one is reported as is
not stated here (log entry 16). -/
def Obligations.PseudoInstructionsExpandAsListed : Prop :=
  (∀ b0 b1 b2 : Byte, (AsmLine.fbpush3 b0.toNat b1.toNat b2.toNat).expand = [.fbpush b0, .fbpush b1, .fbpush b2]) ∧
  (∀ bs : List Byte, (AsmLine.fbload (bs.map BitVec.toNat)).expand = .fbclr :: bs.map .fbpush ∧
    ((AsmLine.fbload (bs.map BitVec.toNat)).wellFormed = true ↔ 1 ≤ bs.length ∧ bs.length ≤ 60)) ∧
  ∀ (hi lo : Byte) (s : State), ∃ t, pushwBefore hi lo = [.encw hi lo] ∧ exec (.encw hi lo) s = .next t ∧
    pushwAfter hi lo t.res = [.fbpush hi, .fbpush lo, .fbpush (crc8 hi lo)]

/-- 42_reassembler.md R163: the host's reading of the source's two patterns (95_test_vectors.md S1, S2). -/
def Obligations.SourcePatternsReadAsTenAndZero : Prop :=
  f32 (be32 [0x41#8, 0x20#8, 0x00#8, 0x00#8] 0) = .number false 10 ∧
  f32 (be32 [0x00#8, 0x00#8, 0x00#8, 0x00#8] 0) = .number false 0

end
end

