-- ==== Sys2Proof/Laws/Frame.lean ====
section
/-! SUPPORT. Frames of whole triplets: what one triplet at the front adds, and induction over triplets. -/
namespace Sys2Proof.Machine

/-- A property of every frame of whole triplets, one triplet at a time. -/
theorem frame_induction {P : List Byte → Prop} (nil : P [])
    (triplet : ∀ hi lo chk rest, rest.length % 3 = 0 → P rest → P (hi :: lo :: chk :: rest)) :
    ∀ fb : List Byte, fb.length % 3 = 0 → P fb
  | [], _ => nil
  | [_], h => by simp at h
  | [_, _], h => by simp at h
  | hi :: lo :: chk :: rest, h => by
    have hr : rest.length % 3 = 0 := by simp only [List.length_cons] at h; omega
    exact triplet hi lo chk rest hr (frame_induction nil triplet rest hr)

@[simp] theorem triplets_nil : triplets [] = [] := rfl

@[simp] theorem triplets_cons (hi lo chk : Byte) (rest : List Byte) :
    triplets (hi :: lo :: chk :: rest) = ⟨hi, lo, chk⟩ :: triplets rest := rfl

@[simp] theorem extract_nil : extract [] = [] := rfl

@[simp] theorem extract_cons (hi lo chk : Byte) (rest : List Byte) :
    extract (hi :: lo :: chk :: rest) = hi :: lo :: extract rest := by
  simp [extract]

@[simp] theorem allTriplets_nil : allTriplets [] = true := rfl

@[simp] theorem allTriplets_cons (hi lo chk : Byte) (rest : List Byte) :
    allTriplets (hi :: lo :: chk :: rest) = (crc8 hi lo == chk && allTriplets rest) := rfl

/-- Any frame has one triplet for each three whole bytes. -/
theorem triplets_length : ∀ fb : List Byte, (triplets fb).length = fb.length / 3
  | [] => rfl
  | [_] => by simp [triplets]
  | [_, _] => by simp [triplets]
  | hi :: lo :: chk :: rest => by
    rw [triplets_cons, List.length_cons, triplets_length rest]
    simp only [List.length_cons]
    omega

/-- Any frame gives two bytes for each triplet. -/
theorem extract_length_eq (fb : List Byte) : (extract fb).length = 2 * (fb.length / 3) := by
  unfold extract
  rw [← triplets_length fb]
  generalize triplets fb = ts
  induction ts with
  | nil => rfl
  | cons t ts ih =>
    rw [List.flatMap_cons, List.length_append, ih]
    simp only [List.length_cons, List.length_nil]
    omega

@[simp] theorem byteAt_cons_zero (b : Byte) (rest : List Byte) : byteAt (b :: rest) 0 = b := rfl

@[simp] theorem byteAt_cons_succ (b : Byte) (rest : List Byte) (i : Nat) :
    byteAt (b :: rest) (i + 1) = byteAt rest i := rfl

/-- Inside a sequence `byteAt` is its byte: the zero past the end is not read (log entry 7). -/
theorem byteAt_eq_getElem {d : List Byte} {i : Nat} (h : i < d.length) : byteAt d i = d[i] := by
  simp [byteAt, h]

theorem asciiLen_le : ∀ d : List Byte, asciiLen d ≤ d.length
  | [] => Nat.le_refl 0
  | b :: rest => by
    have := asciiLen_le rest
    unfold asciiLen
    split <;> simp only [List.length_cons] <;> omega

theorem asciiLen_cons_zero (rest : List Byte) : asciiLen (0#8 :: rest) = 0 := rfl

theorem asciiLen_cons_of_ne {b : Byte} (h : b ≠ 0#8) (rest : List Byte) :
    asciiLen (b :: rest) = asciiLen rest + 1 := if_neg h

theorem Triplet.ok_iff (t : Triplet) : t.ok = true ↔ crc8 t.hi t.lo = t.chk := by
  simp [Triplet.ok]

end Sys2Proof.Machine
end

