-- ==== Sys2Proof/Laws/State.lean ====
section
/-! SUPPORT. One lemma per register and register write, so that no proof unfolds a record update. -/
namespace Sys2Proof.Machine

@[simp] theorem report_status (st : Status) (ek : Option ErrorKind) (s : State) : (report st ek s).status = st.code := rfl
@[simp] theorem report_errkind (st : Status) (ek : Option ErrorKind) (s : State) : (report st ek s).errkind = errkindCode ek := rfl
@[simp] theorem report_valid (st : Status) (ek : Option ErrorKind) (s : State) : (report st ek s).valid = s.valid := rfl
@[simp] theorem report_res (st : Status) (ek : Option ErrorKind) (s : State) : (report st ek s).res = s.res := rfl
@[simp] theorem report_fb (st : Status) (ek : Option ErrorKind) (s : State) : (report st ek s).fb = s.fb := rfl
@[simp] theorem report_db (st : Status) (ek : Option ErrorKind) (s : State) : (report st ek s).db = s.db := rfl
@[simp] theorem report_strlen (st : Status) (ek : Option ErrorKind) (s : State) : (report st ek s).strlen = s.strlen := rfl
@[simp] theorem report_snap (st : Status) (ek : Option ErrorKind) (s : State) : (report st ek s).snap = s.snap := rfl
@[simp] theorem report_inputs (st : Status) (ek : Option ErrorKind) (s : State) : (report st ek s).inputs = s.inputs := rfl

@[simp] theorem setRes_status (v : Word) (s : State) : (setRes v s).status = s.status := rfl
@[simp] theorem setRes_errkind (v : Word) (s : State) : (setRes v s).errkind = s.errkind := rfl
@[simp] theorem setRes_valid (v : Word) (s : State) : (setRes v s).valid = s.valid := rfl
@[simp] theorem setRes_res (v : Word) (s : State) : (setRes v s).res = v := rfl
@[simp] theorem setRes_fb (v : Word) (s : State) : (setRes v s).fb = s.fb := rfl
@[simp] theorem setRes_db (v : Word) (s : State) : (setRes v s).db = s.db := rfl
@[simp] theorem setRes_strlen (v : Word) (s : State) : (setRes v s).strlen = s.strlen := rfl
@[simp] theorem setRes_snap (v : Word) (s : State) : (setRes v s).snap = s.snap := rfl
@[simp] theorem setRes_inputs (v : Word) (s : State) : (setRes v s).inputs = s.inputs := rfl

@[simp] theorem setValid_status (v : Bool) (s : State) : (setValid v s).status = s.status := rfl
@[simp] theorem setValid_errkind (v : Bool) (s : State) : (setValid v s).errkind = s.errkind := rfl
@[simp] theorem setValid_valid (v : Bool) (s : State) : (setValid v s).valid = v := rfl
@[simp] theorem setValid_res (v : Bool) (s : State) : (setValid v s).res = s.res := rfl
@[simp] theorem setValid_fb (v : Bool) (s : State) : (setValid v s).fb = s.fb := rfl
@[simp] theorem setValid_db (v : Bool) (s : State) : (setValid v s).db = s.db := rfl
@[simp] theorem setValid_strlen (v : Bool) (s : State) : (setValid v s).strlen = s.strlen := rfl
@[simp] theorem setValid_snap (v : Bool) (s : State) : (setValid v s).snap = s.snap := rfl
@[simp] theorem setValid_inputs (v : Bool) (s : State) : (setValid v s).inputs = s.inputs := rfl

@[simp] theorem clearFrame_status (s : State) : (clearFrame s).status = s.status := rfl
@[simp] theorem clearFrame_errkind (s : State) : (clearFrame s).errkind = s.errkind := rfl
@[simp] theorem clearFrame_valid (s : State) : (clearFrame s).valid = s.valid := rfl
@[simp] theorem clearFrame_res (s : State) : (clearFrame s).res = s.res := rfl
@[simp] theorem clearFrame_fb (s : State) : (clearFrame s).fb = [] := rfl
@[simp] theorem clearFrame_db (s : State) : (clearFrame s).db = s.db := rfl
@[simp] theorem clearFrame_strlen (s : State) : (clearFrame s).strlen = s.strlen := rfl
@[simp] theorem clearFrame_snap (s : State) : (clearFrame s).snap = s.snap := rfl
@[simp] theorem clearFrame_inputs (s : State) : (clearFrame s).inputs = s.inputs := rfl

@[simp] theorem pushByte_status (b : Byte) (s : State) : (pushByte b s).status = s.status := rfl
@[simp] theorem pushByte_errkind (b : Byte) (s : State) : (pushByte b s).errkind = s.errkind := rfl
@[simp] theorem pushByte_valid (b : Byte) (s : State) : (pushByte b s).valid = s.valid := rfl
@[simp] theorem pushByte_res (b : Byte) (s : State) : (pushByte b s).res = s.res := rfl
@[simp] theorem pushByte_fb (b : Byte) (s : State) : (pushByte b s).fb = s.fb ++ [b] := rfl
@[simp] theorem pushByte_db (b : Byte) (s : State) : (pushByte b s).db = s.db := rfl
@[simp] theorem pushByte_strlen (b : Byte) (s : State) : (pushByte b s).strlen = s.strlen := rfl
@[simp] theorem pushByte_snap (b : Byte) (s : State) : (pushByte b s).snap = s.snap := rfl
@[simp] theorem pushByte_inputs (b : Byte) (s : State) : (pushByte b s).inputs = s.inputs := rfl

@[simp] theorem setData_status (d : List Byte) (s : State) : (setData d s).status = s.status := rfl
@[simp] theorem setData_errkind (d : List Byte) (s : State) : (setData d s).errkind = s.errkind := rfl
@[simp] theorem setData_valid (d : List Byte) (s : State) : (setData d s).valid = s.valid := rfl
@[simp] theorem setData_res (d : List Byte) (s : State) : (setData d s).res = s.res := rfl
@[simp] theorem setData_fb (d : List Byte) (s : State) : (setData d s).fb = s.fb := rfl
@[simp] theorem setData_db (d : List Byte) (s : State) : (setData d s).db = d := rfl
@[simp] theorem setData_strlen (d : List Byte) (s : State) : (setData d s).strlen = s.strlen := rfl
@[simp] theorem setData_snap (d : List Byte) (s : State) : (setData d s).snap = s.snap := rfl
@[simp] theorem setData_inputs (d : List Byte) (s : State) : (setData d s).inputs = s.inputs := rfl

@[simp] theorem setStrlen_status (n : Nat) (s : State) : (setStrlen n s).status = s.status := rfl
@[simp] theorem setStrlen_errkind (n : Nat) (s : State) : (setStrlen n s).errkind = s.errkind := rfl
@[simp] theorem setStrlen_valid (n : Nat) (s : State) : (setStrlen n s).valid = s.valid := rfl
@[simp] theorem setStrlen_res (n : Nat) (s : State) : (setStrlen n s).res = s.res := rfl
@[simp] theorem setStrlen_fb (n : Nat) (s : State) : (setStrlen n s).fb = s.fb := rfl
@[simp] theorem setStrlen_db (n : Nat) (s : State) : (setStrlen n s).db = s.db := rfl
@[simp] theorem setStrlen_strlen (n : Nat) (s : State) : (setStrlen n s).strlen = BitVec.ofNat 8 n := rfl
@[simp] theorem setStrlen_snap (n : Nat) (s : State) : (setStrlen n s).snap = s.snap := rfl
@[simp] theorem setStrlen_inputs (n : Nat) (s : State) : (setStrlen n s).inputs = s.inputs := rfl

@[simp] theorem commitSnapshot_status (v : Vector Word 10) (s : State) : (commitSnapshot v s).status = s.status := rfl
@[simp] theorem commitSnapshot_errkind (v : Vector Word 10) (s : State) : (commitSnapshot v s).errkind = s.errkind := rfl
@[simp] theorem commitSnapshot_valid (v : Vector Word 10) (s : State) : (commitSnapshot v s).valid = s.valid := rfl
@[simp] theorem commitSnapshot_res (v : Vector Word 10) (s : State) : (commitSnapshot v s).res = s.res := rfl
@[simp] theorem commitSnapshot_fb (v : Vector Word 10) (s : State) : (commitSnapshot v s).fb = s.fb := rfl
@[simp] theorem commitSnapshot_db (v : Vector Word 10) (s : State) : (commitSnapshot v s).db = s.db := rfl
@[simp] theorem commitSnapshot_strlen (v : Vector Word 10) (s : State) : (commitSnapshot v s).strlen = s.strlen := rfl
@[simp] theorem commitSnapshot_snap (v : Vector Word 10) (s : State) : (commitSnapshot v s).snap = some v := rfl
@[simp] theorem commitSnapshot_inputs (v : Vector Word 10) (s : State) : (commitSnapshot v s).inputs = s.inputs := rfl

@[simp] theorem setInputs_status (es : List Input) (s : State) : (setInputs es s).status = s.status := rfl
@[simp] theorem setInputs_errkind (es : List Input) (s : State) : (setInputs es s).errkind = s.errkind := rfl
@[simp] theorem setInputs_valid (es : List Input) (s : State) : (setInputs es s).valid = s.valid := rfl
@[simp] theorem setInputs_res (es : List Input) (s : State) : (setInputs es s).res = s.res := rfl
@[simp] theorem setInputs_fb (es : List Input) (s : State) : (setInputs es s).fb = s.fb := rfl
@[simp] theorem setInputs_db (es : List Input) (s : State) : (setInputs es s).db = s.db := rfl
@[simp] theorem setInputs_strlen (es : List Input) (s : State) : (setInputs es s).strlen = s.strlen := rfl
@[simp] theorem setInputs_snap (es : List Input) (s : State) : (setInputs es s).snap = s.snap := rfl
@[simp] theorem setInputs_inputs (es : List Input) (s : State) : (setInputs es s).inputs = es := rfl

@[simp] theorem setInputs_self (s : State) : setInputs s.inputs s = s := rfl

@[simp] theorem setInputs_setInputs (es es' : List Input) (s : State) :
    setInputs es (setInputs es' s) = setInputs es s := rfl

/-- Two states that agree on every register and on the events to come are one. -/
theorem State.ext_fields {s t : State} (h1 : s.status = t.status) (h2 : s.errkind = t.errkind) (h3 : s.valid = t.valid)
    (h4 : s.res = t.res) (h5 : s.fb = t.fb) (h6 : s.db = t.db) (h7 : s.strlen = t.strlen) (h8 : s.snap = t.snap)
    (h9 : s.inputs = t.inputs) : s = t := by
  cases s; cases t; simp_all

end Sys2Proof.Machine
end

