-- ==== Sys2Proof/Laws/HostView.lean ====
section
/-! SUPPORT. What each output port shows. -/
namespace Sys2Proof.Machine

theorem observe_db (i : Fin 40) (s : State) : observe (.db i) s = s.db[i.val]? := rfl

theorem observe_snap_none (c : Fin 10) {s : State} (h : s.snap = none) : observe (.snap c) s = none := by
  simp only [observe, h, Option.map_none]

theorem observe_snap_some (c : Fin 10) {s : State} {v : Vector Word 10} (h : s.snap = some v) :
    observe (.snap c) s = some v[c] := by
  show s.snap.map (fun v => v[c]) = some v[c]
  rw [h]
  rfl

theorem observe_valid (s : State) : observe .valid s = some (BitVec.ofBool s.valid) := rfl

theorem observe_snapv (s : State) : observe .snapv s = some (BitVec.ofBool s.snap.isSome) := rfl

theorem hostRead_of_absent {p : OutPort} {s : State} (h : observe p s = none) :
    hostRead p s = .error (.absentOutput p) := by
  simp only [hostRead, h]

theorem hostRead_of_present {p : OutPort} {s : State} {v : BitVec p.width} (h : observe p s = some v) :
    hostRead p s = .ok v := by
  simp only [hostRead, h]

/-- Two states that agree on all but FB's bytes and the events to come show the same on every port. -/
theorem observe_congr {s t : State} (h1 : s.status = t.status) (h2 : s.errkind = t.errkind) (h3 : s.valid = t.valid)
    (h4 : s.res = t.res) (h5 : s.fb.length = t.fb.length) (h6 : s.db = t.db) (h7 : s.strlen = t.strlen)
    (h8 : s.snap = t.snap) (p : OutPort) : observe p s = observe p t := by
  cases p <;> simp [observe, State.flen, State.dblen, State.snapv, *]

end Sys2Proof.Machine
end

