-- ==== Sys2Proof/Laws/Ops.lean ====
section
/-! SUPPORT. Each shared operation and each meaning with a guard, case by case: what it answers, and why. -/
namespace Sys2Proof.Machine

@[simp] theorem errkindCode_none : errkindCode none = 0#8 := rfl

@[simp] theorem errkindCode_some (e : ErrorKind) : errkindCode (some e) = e.code := rfl

/-- The wrong length: LEN_ERR (R124, R204). -/
theorem decodeFrame_lenErr {k : Kind} {s : State} (h : s.fb.length ≠ k.expLen) :
    decodeFrame k s = report .lenErr none s := if_pos h

/-- A failing triplet: CRC_ERR, VALID <- 0 (R124, R205). -/
theorem decodeFrame_crcErr {k : Kind} {s : State} (h : s.fb.length = k.expLen) (bad : allTriplets s.fb = false) :
    decodeFrame k s = report .crcErr (some k.errorKind) (setValid false s) := by
  rw [decodeFrame, if_neg (not_not.mpr h), if_pos bad]

/-- A good frame: DB, VALID <- 1 and the interpretation (R124). -/
theorem decodeFrame_ok {k : Kind} {s : State} (h : s.fb.length = k.expLen) (good : allTriplets s.fb = true) :
    decodeFrame k s =
      report .ok none (interpret k (extract s.fb) (setValid true (setData (extract s.fb) s))) := by
  rw [decodeFrame, if_neg (not_not.mpr h), if_neg (by simp [good])]

/-- All that `Decode(K)` can do (R124). -/
theorem decodeFrame_cases (k : Kind) (s : State) :
    (s.fb.length ≠ k.expLen ∧ decodeFrame k s = report .lenErr none s) ∨
    (s.fb.length = k.expLen ∧ allTriplets s.fb = false ∧
      decodeFrame k s = report .crcErr (some k.errorKind) (setValid false s)) ∨
    (s.fb.length = k.expLen ∧ allTriplets s.fb = true ∧
      decodeFrame k s =
        report .ok none (interpret k (extract s.fb) (setValid true (setData (extract s.fb) s)))) := by
  by_cases h : s.fb.length = k.expLen
  · cases hv : allTriplets s.fb
    · exact .inr (.inl ⟨h, rfl, decodeFrame_crcErr h hv⟩)
    · exact .inr (.inr ⟨h, rfl, decodeFrame_ok h hv⟩)
  · exact .inl ⟨h, decodeFrame_lenErr h⟩

/-- No interpretation writes STATUS, ERRKIND, VALID, FB, DB or the events to come. -/
theorem interpret_frame (k : Kind) (d : List Byte) (s : State) :
    (interpret k d s).status = s.status ∧ (interpret k d s).errkind = s.errkind ∧
    (interpret k d s).valid = s.valid ∧ (interpret k d s).fb = s.fb ∧ (interpret k d s).db = s.db ∧
    (interpret k d s).inputs = s.inputs := by
  cases k <;> exact ⟨rfl, rfl, rfl, rfl, rfl, rfl⟩

theorem execFbpush_full {b : Byte} {s : State} (h : s.fb.length = 60) :
    execFbpush b s = .next (report .overflow none s) := if_pos h

theorem execFbpush_room {b : Byte} {s : State} (h : s.fb.length ≠ 60) :
    execFbpush b s = .next (report .ok none (pushByte b s)) := if_neg h

theorem execVerify_lenErr {s : State} (h : s.fb.length = 0 ∨ s.fb.length % 3 ≠ 0) :
    execVerify s = .next (report .lenErr none s) := if_pos h

theorem execVerify_checked {s : State} (h : s.fb.length ≠ 0) (h3 : s.fb.length % 3 = 0) :
    execVerify s = .next (report .ok none (setValid (allTriplets s.fb) s)) :=
  if_neg (not_or.mpr ⟨h, not_not.mpr h3⟩)

theorem execReasm_rangeErr {g : Byte} {s : State} (h : 4 * g.toNat + 4 > s.db.length) :
    execReasm g s = .next (report .rangeErr none s) := if_pos h

theorem execReasm_inRange {g : Byte} {s : State} (h : 4 * g.toNat + 4 ≤ s.db.length) :
    execReasm g s = .next (report .ok none (setRes (be32 s.db (4 * g.toNat)) s)) :=
  if_neg (Nat.not_lt.mpr h)

end Sys2Proof.Machine
end

