-- ==== Sys2Proof/Laws/Words.lean ====
section
/-! SUPPORT. Words made of four bytes, and the fields of a command word. -/
namespace Sys2Proof

/-- A 32-bit word of four bytes, as a number. -/
theorem word_ofBytes_toNat (a b c d : Byte) :
    (a ++ b ++ c ++ d : Word).toNat = a.toNat * 2 ^ 24 + b.toNat * 2 ^ 16 + c.toNat * 2 ^ 8 + d.toNat := by
  have hd := BitVec.toNat_append (a ++ b ++ c) d
  have hc := BitVec.toNat_append (a ++ b) c
  have hb := BitVec.toNat_append a b
  rw [← Nat.shiftLeft_add_eq_or_of_lt d.isLt, Nat.shiftLeft_eq] at hd
  rw [← Nat.shiftLeft_add_eq_or_of_lt c.isLt, Nat.shiftLeft_eq] at hc
  rw [← Nat.shiftLeft_add_eq_or_of_lt b.isLt, Nat.shiftLeft_eq] at hb
  refine hd.trans ?_
  rw [hc, hb]
  ring

@[simp] theorem opField_cmdWord (op a b c : Byte) : opField (cmdWord op a b c) = op := by
  apply BitVec.eq_of_toNat_eq
  simp only [opField, cmdWord, BitVec.extractLsb'_toNat, word_ofBytes_toNat, Nat.shiftRight_eq_div_pow]
  omega

@[simp] theorem aField_cmdWord (op a b c : Byte) : aField (cmdWord op a b c) = a := by
  apply BitVec.eq_of_toNat_eq
  simp only [aField, cmdWord, BitVec.extractLsb'_toNat, word_ofBytes_toNat, Nat.shiftRight_eq_div_pow]
  omega

@[simp] theorem bField_cmdWord (op a b c : Byte) : bField (cmdWord op a b c) = b := by
  apply BitVec.eq_of_toNat_eq
  simp only [bField, cmdWord, BitVec.extractLsb'_toNat, word_ofBytes_toNat, Nat.shiftRight_eq_div_pow]
  omega

@[simp] theorem cField_cmdWord (op a b c : Byte) : cField (cmdWord op a b c) = c := by
  apply BitVec.eq_of_toNat_eq
  simp only [cField, cmdWord, BitVec.extractLsb'_toNat, word_ofBytes_toNat, Nat.shiftRight_eq_div_pow]
  omega

/-- A word is the word of its four fields. -/
theorem cmdWord_fields (w : Word) : cmdWord (opField w) (aField w) (bField w) (cField w) = w := by
  apply BitVec.eq_of_toNat_eq
  simp only [opField, aField, bField, cField, cmdWord, BitVec.extractLsb'_toNat, word_ofBytes_toNat,
    Nat.shiftRight_eq_div_pow]
  omega

/-- Two command words are one exactly when their fields are. -/
theorem cmdWord_inj (op a b c op' a' b' c' : Byte) :
    cmdWord op a b c = cmdWord op' a' b' c' ↔ op = op' ∧ a = a' ∧ b = b' ∧ c = c' := by
  constructor
  · intro h
    exact ⟨by simpa using congrArg opField h, by simpa using congrArg aField h, by simpa using congrArg bField h,
      by simpa using congrArg cField h⟩
  · rintro ⟨rfl, rfl, rfl, rfl⟩
    rfl

/-- Bitwise AND works field by field. -/
theorem cmdWord_and (op a b c op' a' b' c' : Byte) :
    cmdWord op a b c &&& cmdWord op' a' b' c' = cmdWord (op &&& op') (a &&& a') (b &&& b') (c &&& c') := by
  have field : ∀ (x y : Word) (k : Nat), (x &&& y).extractLsb' k 8 = x.extractLsb' k 8 &&& y.extractLsb' k 8 := by
    intro x y k
    apply BitVec.eq_of_getLsbD_eq
    intro i hi
    simp [hi]
  rw [← cmdWord_fields (cmdWord op a b c &&& cmdWord op' a' b' c'), cmdWord_inj]
  refine ⟨?_, ?_, ?_, ?_⟩
  · rw [opField, field]; exact congrArg₂ _ (opField_cmdWord ..) (opField_cmdWord ..)
  · rw [aField, field]; exact congrArg₂ _ (aField_cmdWord ..) (aField_cmdWord ..)
  · rw [bField, field]; exact congrArg₂ _ (bField_cmdWord ..) (bField_cmdWord ..)
  · rw [cField, field]; exact congrArg₂ _ (cField_cmdWord ..) (cField_cmdWord ..)

/-- A word selects a row exactly when each of its fields does. -/
theorem selects_cmdWord (r : OpRow) (op a b c : Byte) :
    r.selects (cmdWord op a b c) = true ↔
      op &&& opField r.mask = opField r.pattern ∧ a &&& aField r.mask = aField r.pattern ∧
      b &&& bField r.mask = bField r.pattern ∧ c &&& cField r.mask = cField r.pattern := by
  have h : cmdWord op a b c &&& r.mask = r.pattern ↔
      cmdWord op a b c &&& cmdWord (opField r.mask) (aField r.mask) (bField r.mask) (cField r.mask) =
        cmdWord (opField r.pattern) (aField r.pattern) (bField r.pattern) (cField r.pattern) := by
    rw [cmdWord_fields, cmdWord_fields]
  simp only [OpRow.selects, beq_iff_eq]
  rw [h, cmdWord_and, cmdWord_inj]

/-- Decoding a word is decoding its fields. -/
@[simp] theorem decode_cmdWord (op a b c : Byte) : decode (cmdWord op a b c) = decodeFields op a b c := by
  simp [decode]

/-- The one case in which a command with reserved fields decodes. -/
theorem ifReservedZero_ok {zero : Bool} {i j : Instr} :
    ifReservedZero zero i = .ok j ↔ zero = true ∧ i = j := by
  cases zero <;> simp [ifReservedZero]

/-- The one case in which a command with reserved fields is illegal. -/
theorem ifReservedZero_error {zero : Bool} {i : Instr} {why : IllegalWord} :
    ifReservedZero zero i = .error why ↔ zero = false ∧ .reservedNotZero = why := by
  cases zero <;> simp [ifReservedZero]

end Sys2Proof
end

