-- ==== Sys2Proof/Laws/PerInstr.lean ====
section
/-! SUPPORT. One lemma per command: its encoding selects its own row of the opcode map (30_encoding.md R73). -/
namespace Sys2Proof.Laws.EncodeSelectsRow

/-- Some row of the opcode map has the command's mnemonic and is selected by the command's word. -/
def Statement (i : Instr) : Prop :=
  ∃ r ∈ opcodeTable, r.mnemonic = i.mnemonic ∧ r.selects (encode i) = true

theorem nop : Statement .nop := ⟨_, .head _, rfl, by decide⟩

theorem crc8 (hi lo : Byte) : Statement (.crc8 hi lo) := by
  refine ⟨_, .tail _ (.head _), rfl, (selects_cmdWord _ _ _ _ _).mpr ⟨by decide, ?_, ?_, by decide⟩⟩ <;> exact BitVec.and_zero

theorem tchk (hi lo chk : Byte) : Statement (.tchk hi lo chk) := by
  refine ⟨_, .tail _ (.tail _ (.head _)), rfl, (selects_cmdWord _ _ _ _ _).mpr ⟨by decide, ?_, ?_, ?_⟩⟩ <;>
    exact BitVec.and_zero

theorem encw (hi lo : Byte) : Statement (.encw hi lo) := by
  refine ⟨_, .tail _ (.tail _ (.tail _ (.head _))), rfl,
    (selects_cmdWord _ _ _ _ _).mpr ⟨by decide, ?_, ?_, by decide⟩⟩ <;> exact BitVec.and_zero

theorem fbclr : Statement .fbclr := by unfold Statement; decide

theorem fbpush (b : Byte) : Statement (.fbpush b) := by
  refine ⟨_, .tail _ (.tail _ (.tail _ (.tail _ (.tail _ (.head _))))), rfl,
    (selects_cmdWord _ _ _ _ _).mpr ⟨by decide, BitVec.and_zero, by decide, by decide⟩⟩

theorem verify : Statement .verify := by unfold Statement; decide

theorem decArt : Statement .decArt := by unfold Statement; decide

theorem decSer : Statement .decSer := by unfold Statement; decide

theorem decAci : Statement .decAci := by unfold Statement; decide

theorem decDrdy : Statement .decDrdy := by unfold Statement; decide

theorem decMeas : Statement .decMeas := by unfold Statement; decide

theorem reasm (g : Byte) : Statement (.reasm g) := by
  refine ⟨⟨"REASM", 0x30000000#32, 0xFF00FFFF#32⟩, by decide, rfl,
    (selects_cmdWord _ _ _ _ _).mpr ⟨by decide, BitVec.and_zero, by decide, by decide⟩⟩

end Sys2Proof.Laws.EncodeSelectsRow
end

