-- ==== Sys2Proof/Laws/Step.lean ====
section
/-! SUPPORT. The step and the port's cycle, case by case. -/
namespace Sys2Proof.Machine

theorem step_idle {s : State} (h : s.inputs = []) : step s = idle s := by
  simp only [step, runNext, h]

theorem step_input {s : State} {e : Input} {rest : List Input} (h : s.inputs = e :: rest) :
    step s = runInput e (setInputs rest s) := by
  simp only [step, runNext, h]

theorem runWord_of_ok {w : Word} {i : Instr} (h : decode w = .ok i) (s : State) : runWord w s = exec i s := by
  simp only [runWord, h]

theorem runWord_of_error {w : Word} {why : IllegalWord} (h : decode w = .error why) (s : State) :
    runWord w s = .next (report .illegal none s) := by
  simp only [runWord, h, runIllegal]

theorem runInput_cmd (w : Word) (s : State) : runInput (.cmd w) s = runWord w s := rfl

theorem runInput_rst (s : State) : runInput .rst s = .next (resetBlock s) := rfl

theorem resetBlock_eq (s : State) : resetBlock s = setInputs s.inputs State.reset := rfl

theorem cmdReady_rst {pins : Pins} (h : pins.rst = true) (p : PortState) : cmdReady pins p = false := by
  simp [cmdReady, h]

theorem cmdReady_busy (pins : Pins) (b : State) (w : Word) (left : Nat) : cmdReady pins ⟨b, .busy w left⟩ = false := by
  cases h : pins.rst <;> simp [cmdReady, h]

theorem cmdReady_idle {pins : Pins} (h : pins.rst = false) (b : State) : cmdReady pins ⟨b, .ready⟩ = true := by
  simp [cmdReady, h]

/-- R24: no output has a meaning while `cmd_ready` is low. -/
theorem pinObserve_of_low {pins : Pins} {p : PortState} (h : cmdReady pins p = false) (o : OutPort) :
    pinObserve pins o p = none := by
  simp only [pinObserve, h, Bool.false_eq_true, if_false]

/-- R22: between two commands the outputs show the registers. -/
theorem pinObserve_idle {pins : Pins} (h : pins.rst = false) (b : State) (o : OutPort) :
    pinObserve pins o ⟨b, .ready⟩ = observe o b := by
  simp only [pinObserve, cmdReady_idle h, if_true, portObserve]

theorem cycle_rst {pins : Pins} (h : pins.rst = true) (latency : Nat) (p : PortState) :
    cycle latency pins p = .next ⟨resetBlock p.block, .ready⟩ := if_pos h

theorem cycle_accept {pins : Pins} (h : pins.rst = false) (hv : pins.cmdValid = true) (latency : Nat) (b : State) :
    cycle latency pins ⟨b, .ready⟩ = .next ⟨b, .busy pins.cmd (latency - 1)⟩ := by
  simp [cycle, h, hv]

theorem cycle_quiet {pins : Pins} (h : pins.rst = false) (hv : pins.cmdValid = false) (latency : Nat) (b : State) :
    cycle latency pins ⟨b, .ready⟩ = .next ⟨b, .ready⟩ := by
  simp [cycle, h, hv]

theorem cycle_wait {pins : Pins} (h : pins.rst = false) (latency : Nat) (b : State) (w : Word) (left : Nat) :
    cycle latency pins ⟨b, .busy w (left + 1)⟩ = .next ⟨b, .busy w left⟩ := by
  simp [cycle, h]

theorem cycle_complete {pins : Pins} (h : pins.rst = false) (latency : Nat) (b : State) (w : Word) :
    cycle latency pins ⟨b, .busy w 0⟩ = completeCommand (runWord w b) := by
  simp [cycle, h]

theorem core_run_zero (s : State) : Sys2Proof.core.run 0 s = .next s := rfl

theorem core_run_succ {s t : State} (h : step s = .next t) (k : Nat) :
    Sys2Proof.core.run (k + 1) s = Sys2Proof.core.run k t := by
  have hs : Sys2Proof.core.step s = .next t := h
  simp only [Host.Core.run, hs]

end Sys2Proof.Machine
end

