-- ==== Sys2Proof/Tests/Slice0.lean ====
section
/-! SUPPORT. Tests, their expected values from spec/95_test_vectors.md (each names its vector), and for each statement
with hypotheses a witness that meets them. -/
-- One thread: the many small kernel evaluations below would each hold a worker's stack.
set_option Elab.async false

namespace Sys2Proof.Tests

open Sys2Proof.Machine
open Sys2Proof.Claims

/-- The next state of a meaning or a step, if that is what it answers. -/
def nextOf (r : Result) : Option State :=
  match r with
  | .next t => some t
  | .fault _ => none
  | .refused _ => none

/-- Reset, with a frame in FB. -/
def withFrame (bytes : List Byte) : State := { State.reset with fb := bytes }

/-- Reset, with the host's events. -/
def offering (es : List Input) : State := { State.reset with inputs := es }

/-- The identifier frame of 95_test_vectors.md 4.2, "SPS30-0123". -/
def idFrame : List Byte :=
  [0x53#8, 0x50#8, 0x35#8, 0x53#8, 0x33#8, 0xDD#8, 0x30#8, 0x2D#8, 0xF9#8, 0x30#8, 0x31#8, 0xC7#8, 0x32#8, 0x33#8, 0x7C#8] ++
  [0x00#8, 0x00#8, 0x81#8, 0x00#8, 0x00#8, 0x81#8, 0x00#8, 0x00#8, 0x81#8, 0x00#8, 0x00#8, 0x81#8, 0x00#8, 0x00#8, 0x81#8, 0x00#8, 0x00#8, 0x81#8] ++
  [0x00#8, 0x00#8, 0x81#8, 0x00#8, 0x00#8, 0x81#8, 0x00#8, 0x00#8, 0x81#8, 0x00#8, 0x00#8, 0x81#8, 0x00#8, 0x00#8, 0x81#8]

/-- The frame of the 32-character identifier of 95_test_vectors.md 4.2. -/
def fullIdFrame : List Byte :=
  [0x41#8, 0x42#8, 0xA3#8, 0x43#8, 0x44#8, 0xDC#8, 0x45#8, 0x46#8, 0xE4#8, 0x47#8, 0x48#8, 0x22#8, 0x49#8, 0x4A#8, 0x2D#8, 0x4B#8, 0x4C#8, 0x52#8, 0x4D#8, 0x4E#8, 0x6A#8, 0x4F#8, 0x50#8, 0xEF#8] ++
  [0x51#8, 0x52#8, 0x8E#8, 0x53#8, 0x54#8, 0xF1#8, 0x55#8, 0x56#8, 0xC9#8, 0x57#8, 0x58#8, 0x0F#8, 0x59#8, 0x5A#8, 0x00#8, 0x30#8, 0x31#8, 0xC7#8, 0x32#8, 0x33#8, 0x7C#8, 0x34#8, 0x35#8, 0x80#8]

/-- The measurement frame of 95_test_vectors.md 5. -/
def measFrame : List Byte :=
  [0x3F#8, 0x80#8, 0xD0#8, 0x00#8, 0x00#8, 0x81#8] ++
  [0x40#8, 0x20#8, 0x8E#8, 0x00#8, 0x00#8, 0x81#8] ++
  [0x40#8, 0x80#8, 0x72#8, 0x00#8, 0x00#8, 0x81#8] ++
  [0x41#8, 0x20#8, 0x7A#8, 0x00#8, 0x00#8, 0x81#8] ++
  [0x3F#8, 0x00#8, 0xAA#8, 0x00#8, 0x00#8, 0x81#8] ++
  [0x3F#8, 0xC0#8, 0xED#8, 0x00#8, 0x00#8, 0x81#8] ++
  [0x40#8, 0x00#8, 0x08#8, 0x00#8, 0x00#8, 0x81#8] ++
  [0x40#8, 0x40#8, 0x35#8, 0x00#8, 0x00#8, 0x81#8] ++
  [0x3E#8, 0x80#8, 0x24#8, 0x00#8, 0x00#8, 0x81#8] ++
  [0x3F#8, 0x40#8, 0x97#8, 0x00#8, 0x00#8, 0x81#8]

/-- The corner-case measurement frame of 95_test_vectors.md 6. -/
def cornerFrame : List Byte :=
  [0x00#8, 0x00#8, 0x81#8, 0x00#8, 0x00#8, 0x81#8] ++
  [0x80#8, 0x00#8, 0xA2#8, 0x00#8, 0x00#8, 0x81#8] ++
  [0x00#8, 0x12#8, 0xA0#8, 0x34#8, 0x56#8, 0x68#8] ++
  [0x00#8, 0x00#8, 0x81#8, 0x00#8, 0x01#8, 0xB0#8] ++
  [0x7F#8, 0x7F#8, 0xF5#8, 0xFF#8, 0xFF#8, 0xAC#8] ++
  [0x7F#8, 0x80#8, 0x59#8, 0x00#8, 0x00#8, 0x81#8] ++
  [0xFF#8, 0x80#8, 0x7A#8, 0x00#8, 0x00#8, 0x81#8] ++
  [0x7F#8, 0xC0#8, 0x64#8, 0x00#8, 0x00#8, 0x81#8] ++
  [0x7F#8, 0x80#8, 0x59#8, 0x00#8, 0x01#8, 0xB0#8] ++
  [0xC1#8, 0x20#8, 0x59#8, 0x00#8, 0x00#8, 0x81#8]

/-- The interval frame of T-A1. -/
def aciFrame : List Byte := [0x00#8, 0x00#8, 0x81#8, 0x0E#8, 0x10#8, 0xAF#8]

/-- The first triplet bad, the last good (T-V3, T-V4). -/
def badAciFrame : List Byte := [0x00#8, 0x00#8, 0x00#8, 0x0E#8, 0x10#8, 0xAF#8]

/-! ### Decoding: words written out from 30_encoding.md R73 -/

theorem test_decode_nop : decode 0x00000000#32 = .ok .nop := by decide
theorem test_decode_crc8 : decode 0x01BEEF00#32 = .ok (.crc8 0xBE#8 0xEF#8) := by decide
theorem test_decode_tchk : decode 0x020E10AE#32 = .ok (.tchk 0x0E#8 0x10#8 0xAE#8) := by decide
theorem test_decode_encw : decode 0x03FF0000#32 = .ok (.encw 0xFF#8 0x00#8) := by decide
theorem test_decode_fbclr : decode 0x10000000#32 = .ok .fbclr := by decide
theorem test_decode_fbpush : decode 0x11AB0000#32 = .ok (.fbpush 0xAB#8) := by decide
theorem test_decode_verify : decode 0x20000000#32 = .ok .verify := by decide
theorem test_decode_decArt : decode 0x21000000#32 = .ok .decArt := by decide
theorem test_decode_decSer : decode 0x21010000#32 = .ok .decSer := by decide
theorem test_decode_decAci : decode 0x21020000#32 = .ok .decAci := by decide
theorem test_decode_decDrdy : decode 0x21030000#32 = .ok .decDrdy := by decide
theorem test_decode_decMeas : decode 0x21040000#32 = .ok .decMeas := by decide
theorem test_decode_reasm : decode 0x30FF0000#32 = .ok (.reasm 0xFF#8) := by decide

/-- T-C23. -/
theorem test_decode_crc8_reserved : decode 0x01BEEF01#32 = .error .reservedNotZero := by decide

/-- T-X1. -/
theorem test_decode_nop_reserved : decode 0x00000001#32 = .error .reservedNotZero := by decide

/-- T-X2. -/
theorem test_decode_op_04 : decode 0x04000000#32 = .error .unassignedOp := by decide

/-- T-X3. -/
theorem test_decode_op_ff : decode 0xFF000000#32 = .error .unassignedOp := by decide

/-- T-X4. -/
theorem test_decode_kind_5 : decode 0x21050000#32 = .error .unknownKind := by decide

/-- T-X9. -/
theorem test_decode_fbclr_reserved : decode 0x10000001#32 = .error .reservedNotZero := by decide

/-- T-X10. -/
theorem test_decode_verify_reserved : decode 0x20010000#32 = .error .reservedNotZero := by decide

/-- The thirteen rows are disjoint on their patterns: each pattern selects one row (R73). -/
theorem test_table_rows_disjoint :
    opcodeTable.Pairwise (fun r q => r.selects q.pattern = false ∧ q.selects r.pattern = false) := by decide

theorem test_encode_tchk : encode (.tchk 0xBE#8 0xEF#8 0x92#8) = 0x02BEEF92#32 := by decide

theorem test_table_word_masks : decodeTableWord 32 0x30090000 = some (.reasm 9#8) := by decide

/-! ### Well-formedness of assembly lines (R77, R78) -/

theorem test_wf_crc8_hi : (AsmLine.crc8 256 0).wellFormed = false := by decide
theorem test_wf_crc8_lo : (AsmLine.crc8 0 256).wellFormed = false := by decide
theorem test_wf_tchk_hi : (AsmLine.tchk 256 0 0).wellFormed = false := by decide
theorem test_wf_tchk_lo : (AsmLine.tchk 0 256 0).wellFormed = false := by decide
theorem test_wf_tchk_chk : (AsmLine.tchk 0 0 256).wellFormed = false := by decide
theorem test_wf_encw_hi : (AsmLine.encw 256 0).wellFormed = false := by decide
theorem test_wf_encw_lo : (AsmLine.encw 0 256).wellFormed = false := by decide
theorem test_wf_fbpush : (AsmLine.fbpush 256).wellFormed = false := by decide
theorem test_wf_reasm : (AsmLine.reasm 256).wellFormed = false := by decide
theorem test_wf_fbpush3_b0 : (AsmLine.fbpush3 256 0 0).wellFormed = false := by decide
theorem test_wf_fbpush3_b1 : (AsmLine.fbpush3 0 256 0).wellFormed = false := by decide
theorem test_wf_fbpush3_b2 : (AsmLine.fbpush3 0 0 256).wellFormed = false := by decide
theorem test_wf_fbload_operand : (AsmLine.fbload [0, 256]).wellFormed = false := by decide
theorem test_wf_fbload_empty : (AsmLine.fbload []).wellFormed = false := by decide
theorem test_wf_fbload_61 : (AsmLine.fbload (List.replicate 61 0)).wellFormed = false := by decide
theorem test_wf_good : (AsmLine.tchk 0xBE 255 0).wellFormed = true := by decide

/-! ### The assembler's text (R77) -/

/-- `tchk 0xBE, 0xEF, 0x92 ; 02BEEF92` of program P1. -/
theorem test_asm_tchk :
    assembleText (['t', 'c', 'h', 'k', ' ', '0', 'x', 'B', 'E', ',', ' ', '0', 'x', 'E', 'F', ',', ' ', '0', 'x', '9', '2', ' ', ';', ' ', 'P', '1']) = .ok [0x02BEEF92#32] := by decide

/-- The mnemonic in capitals, decimal operands. -/
theorem test_asm_capitals : assembleText ([' ', ' ', 'D', 'E', 'C', '.', 'M', 'E', 'A', 'S']) = .ok [0x21040000#32] := by decide

theorem test_asm_fbpush3 :
    assembleText (['f', 'b', 'p', 'u', 's', 'h', '3', ' ', '0', ',', ' ', '1', ',', ' ', '1', '7', '6']) = .ok [0x11000000#32, 0x11010000#32, 0x11B00000#32] := by decide

theorem test_asm_comment_only : assembleText ([' ', ';', ' ', 'n', 'o', 'p']) = .ok [] := by decide

theorem test_asm_too_wide : assembleText (['r', 'e', 'a', 's', 'm', ' ', '2', '5', '6']) = .error .doesNotFit := by decide

theorem test_asm_unknown : assembleText (['a', 'd', 'd', ' ', '1']) = .error .unknownMnemonic := by decide

theorem test_asm_not_a_number : assembleText (['r', 'e', 'a', 's', 'm', ' ', '0', 'x']) = .error .notANumber := by decide

theorem test_asm_operand_count : assembleText (['r', 'e', 'a', 's', 'm']) = .error .operandCount := by decide

/-! ### The checksum and its commands -/

/-- T-C1. -/
theorem test_crc8_beef : crc8 0xBE#8 0xEF#8 = 0x92#8 := by decide +kernel

/-- T-C6, T-C7: the high byte goes first. -/
theorem test_crc8_order : crc8 0x00#8 0x01#8 = 0xB0#8 ∧ crc8 0x01#8 0x00#8 = 0x75#8 := by decide +kernel

/-- T-C4: a zero checksum. -/
theorem test_exec_crc8 :
    (nextOf (exec (.crc8 0xFF#8 0x00#8) { State.reset with res := 5#32 })).map (·.res) = some 0#32 := by decide +kernel

/-- T-T8: RES gets the word though it is invalid. -/
theorem test_exec_tchk_invalid :
    (nextOf (exec (.tchk 0x0F#8 0x10#8 0xAF#8) { State.reset with valid := true })).map
      (fun t => (t.res, t.valid, t.status)) = some (0x00000F10#32, false, 0#8) := by decide +kernel

/-- T-T5. -/
theorem test_exec_tchk_valid :
    (nextOf (exec (.tchk 0xFF#8 0x00#8 0x00#8) State.reset)).map (fun t => (t.res, t.valid)) =
      some (0x0000FF00#32, true) := by decide +kernel

/-- T-E3. -/
theorem test_exec_encw :
    (nextOf (exec (.encw 0x0E#8 0x10#8) State.reset)).map (·.res) = some 0x000E10AF#32 := by decide +kernel

/-! ### The frame decoder -/

/-- R126: NOP after a CRC_ERR (T-X11). -/
theorem test_exec_nop :
    nextOf (exec .nop { State.reset with status := 1#8, errkind := 5#8 }) = some State.reset := by decide

/-- R127. -/
theorem test_exec_fbclr : (nextOf (exec .fbclr (withFrame measFrame))).map (·.fb) = some [] := by decide

/-- R128's example: FB[2] = B0. -/
theorem test_exec_fbpush :
    (nextOf (exec (.fbpush 0xB0#8) (withFrame [0#8, 1#8]))).map (·.fb) = some [0x00#8, 0x01#8, 0xB0#8] := by decide

/-- T-X7. -/
theorem test_exec_fbpush_overflow :
    nextOf (exec (.fbpush 0xAB#8) (withFrame measFrame)) = some { withFrame measFrame with status := 4#8 } := by decide

/-- T-V3: only the first triplet is bad. -/
theorem test_exec_verify_first_bad :
    (nextOf (exec .verify { withFrame badAciFrame with valid := true })).map (fun t => (t.status, t.valid)) =
      some (0#8, false) := by decide +kernel

/-- T-V8, T-V9: LEN_ERR, VALID unchanged. -/
theorem test_exec_verify_len :
    (nextOf (exec .verify { withFrame [0#8, 0#8, 0x81#8, 0#8] with valid := true })).map
        (fun t => (t.status, t.valid)) = some (2#8, true) ∧
      (nextOf (exec .verify State.reset)).map (·.status) = some 2#8 := by decide

/-- T-V10. -/
theorem test_exec_decArt :
    (nextOf (exec .decArt (withFrame idFrame))).map
        (fun t => (t.status, t.valid, t.strlen, t.dblen, t.res)) = some (0#8, true, 10#8, 32#8, 0#32) := by
  decide +kernel

/-- T-V12: no zero byte. -/
theorem test_exec_decSer :
    (nextOf (exec .decSer (withFrame fullIdFrame))).map (fun t => (t.status, t.strlen)) = some (0#8, 32#8) := by
  decide +kernel

/-- T-A1. -/
theorem test_exec_decAci :
    (nextOf (exec .decAci (withFrame aciFrame))).map (fun t => (t.status, t.res, t.db)) =
      some (0#8, 0x00000E10#32, [0x00#8, 0x00#8, 0x0E#8, 0x10#8]) := by decide +kernel

/-- T-V4. -/
theorem test_exec_decAci_bad :
    nextOf (exec .decAci { withFrame badAciFrame with valid := true }) =
      some { withFrame badAciFrame with status := 1#8, errkind := 3#8 } := by decide +kernel

/-- T-D3, T-D4. -/
theorem test_exec_decDrdy :
    (nextOf (exec .decDrdy (withFrame [0x00#8, 0xFF#8, 0x2D#8]))).map (·.res) = some 1#32 ∧
      (nextOf (exec .decDrdy (withFrame [0x01#8, 0x00#8, 0x75#8]))).map (·.res) = some 0#32 := by decide +kernel

/-- T-M1. -/
theorem test_exec_decMeas :
    (nextOf (exec .decMeas (withFrame measFrame))).map (fun t => (t.status, t.snap)) =
      some (0#8, some #v[0x3F800000#32, 0x40200000#32, 0x40800000#32, 0x41200000#32, 0x3F000000#32, 0x3FC00000#32,
        0x40000000#32, 0x40400000#32, 0x3E800000#32, 0x3F400000#32]) := by decide +kernel

/-- T-M4: 59 bytes of the frame. -/
theorem test_exec_decMeas_short :
    (nextOf (exec .decMeas (withFrame (measFrame.take 59)))).map (fun t => (t.status, t.errkind, t.snap)) =
      some (2#8, 0#8, none) := by decide +kernel

/-! ### The reassembler and the host's reading -/

/-- T-R4: the corner frame's patterns stand bit for bit. -/
theorem test_corner_patterns :
    (nextOf (exec .decMeas (withFrame cornerFrame))).bind (·.snap) =
      some #v[0x00000000#32, 0x80000000#32, 0x00123456#32, 0x00000001#32, 0x7F7FFFFF#32, 0x7F800000#32,
        0xFF800000#32, 0x7FC00000#32, 0x7F800001#32, 0xC1200000#32] := by decide +kernel

/-- T-R9 beside T-R5: group 0 of four bytes, and the group past them. -/
theorem test_exec_reasm :
    (nextOf (exec (.reasm 0#8) { State.reset with db := [0x00#8, 0x12#8, 0x34#8, 0x56#8] })).map (·.res) =
        some 0x00123456#32 ∧
      (nextOf (exec (.reasm 1#8) { State.reset with db := [0x00#8, 0x12#8, 0x34#8, 0x56#8] })).map (·.status) =
        some 5#8 := by decide

/-- T-R12: no wrap at group 255. -/
theorem test_exec_reasm_255 : (nextOf (exec (.reasm 255#8) State.reset)).map (·.status) = some 5#8 := by decide

/-- The quiet and the signalling NaN, and negative infinity (T-R4's readings). -/
theorem test_f32_specials :
    f32 0x7FC00000#32 = .nan true ∧ f32 0x7F800001#32 = .nan false ∧ f32 0xFF800000#32 = .infinity true := by
  decide

/-- R163: the smallest subnormal's magnitude is 2^-149, and -10.0 (T-R6). -/
theorem test_f32_numbers :
    f32 0x00000001#32 = .number false ((2 : Rat) ^ (-149 : Int)) ∧ f32 0xC1200000#32 = .number true 10 := by
  constructor <;> simp [f32] <;> norm_num

/-- T-V10's identifier. -/
theorem test_identifier :
    (nextOf (exec .decArt (withFrame idFrame))).map identifier =
      some [0x53#8, 0x50#8, 0x53#8, 0x33#8, 0x30#8, 0x2D#8, 0x30#8, 0x31#8, 0x32#8, 0x33#8] := by decide +kernel

/-- R23: absent, not zero. -/
theorem test_absent_outputs :
    observe (.db 0) State.reset = none ∧ observe (.snap 3) State.reset = none ∧
      channelPattern .pm1p0 State.reset = none := by decide

/-! ### The step and the port -/

/-- T-X5: ILLEGAL before the length check. -/
theorem test_step_illegal :
    nextOf (step (offering [.cmd 0x21000001#32])) = some { State.reset with status := 3#8 } := by decide

/-- T-X13: `rst`. -/
theorem test_step_rst :
    nextOf (step { withFrame measFrame with inputs := [.rst], status := 5#8, valid := true, db := [1#8, 2#8] }) =
      some State.reset := by decide

/-- The host's check: the word is the very next step's command. -/
theorem test_withFetchWord :
    (nextOf (step (State.reset.withFetchWord 32 0x030E1000))).map (fun t => (t.res, t.inputs)) =
      some (0x000E10AF#32, []) := by decide +kernel

/-- R8, R24: with CMD_LATENCY 2, the word accepted in the first of three cycles completes in the third. -/
theorem test_cycles :
    (match runCycles 2 (List.replicate 3 ⟨false, true, 0x01BEEF00#32⟩) PortState.reset with
      | .next p => some (p.block.res, p.phase)
      | .fault _ => none
      | .refused _ => none) = some (0x92#32, .ready) := by decide +kernel

/-! ### Witnesses: each statement's hypotheses are met together -/

theorem witness_measFrame_good : measFrame.length = 60 ∧ AllMatch measFrame := by
  unfold AllMatch TripletMatches
  decide +kernel

theorem witness_measFrame_bad : (measFrame.set 2 0xD1#8).length = 60 ∧ ¬ AllMatch (measFrame.set 2 0xD1#8) := by
  unfold AllMatch TripletMatches
  decide +kernel

theorem witness_idFrame_good : idFrame.length = 48 ∧ AllMatch idFrame := by
  unfold AllMatch TripletMatches
  decide +kernel

theorem witness_idFrame_bad : (idFrame.set 47 0x80#8).length = 48 ∧ ¬ AllMatch (idFrame.set 47 0x80#8) := by
  unfold AllMatch TripletMatches
  decide +kernel

theorem witness_length_does_not_fit :
    (withFrame aciFrame).fb.length ≠ 48 ∧ (withFrame aciFrame).fb.length ≠ 60 ∧ (withFrame aciFrame).fb.length ≠ 3 ∧
      (withFrame measFrame).fb.length ≠ 6 := by decide

theorem witness_EncodeOfDecodedIsTheWord : decode 0x01BEEF00#32 = .ok (.crc8 0xBE#8 0xEF#8) := by decide

theorem witness_StepRunsTheDecodedCommand :
    (offering [.cmd 0x20000000#32, .rst]).inputs = .cmd 0x20000000#32 :: [.rst] ∧
      decode 0x20000000#32 = .ok .verify := by decide

/-- Both clauses, at the ends of R75's ranges, at a reserved field and at the kinds. -/
theorem witness_IllegalWordReportsIllegalAndNothingElse :
    (offering [.cmd 0x0F000000#32]).inputs = .cmd 0x0F000000#32 :: [] ∧
      (∀ op ∈ [0x04, 0x0F, 0x12, 0x1F, 0x22, 0x2F, 0x31, 0xFF], IllegalFields op 0 0 0) ∧
      IllegalFields 0x21 5 0 0 ∧ IllegalFields 0x03 0 0 1 ∧ IllegalFields 0x20 1 0 0 ∧
      (∀ op ∈ [0x00, 0x01, 0x02, 0x03, 0x10, 0x11, 0x20, 0x21, 0x30], ¬ IllegalFields op 0 0 0) ∧
      ¬ IllegalFields 0x21 4 0 0 ∧ ¬ IllegalFields 0x30 255 0 0 := by
  unfold IllegalFields
  refine ⟨rfl, by decide, by decide, by decide, by decide, by decide, by decide, by decide⟩

theorem witness_NothingOfferedChangesNothing : State.reset.inputs = [] := rfl

theorem witness_RstStepAnswersTheResetState : (offering [.rst]).inputs = .rst :: [] := rfl

theorem witness_ResetStateHasTheStatedValues : (⟨false, false, 0#32⟩ : Pins).rst = false := rfl

theorem witness_Crc8IsABijectionInEachByte : (0x00#8 : Byte) ≠ 0x01#8 := by decide

theorem witness_SingleBitErrorIsAlwaysDetected :
    (0 < 24 ∧ 23 < 24) ∧ (tripletOfBits 0xBEEF92#24).ok = true := by decide +kernel

theorem witness_commands_reserved_field : (0x01#8 : Byte) ≠ 0#8 ∧ (0xFF#8 : Byte) ≠ 0#8 := by decide

theorem witness_FbpushAppendsOrOverflows :
    (withFrame measFrame).fb.length = 60 ∧ (withFrame (measFrame.take 59)).fb.length ≠ 60 := by decide

theorem witness_VerifyChecksEveryTriplet_len :
    (State.reset.fb.length = 0) ∧ (withFrame [0#8, 0#8, 0x81#8, 0#8]).fb.length % 3 ≠ 0 := by decide

theorem witness_VerifyChecksEveryTriplet_good :
    aciFrame.length ≠ 0 ∧ aciFrame.length % 3 = 0 ∧ AllMatch aciFrame := by
  unfold AllMatch TripletMatches
  decide +kernel

theorem witness_VerifyChecksEveryTriplet_bad :
    badAciFrame.length ≠ 0 ∧ badAciFrame.length % 3 = 0 ∧ ¬ AllMatch badAciFrame := by
  unfold AllMatch TripletMatches
  decide +kernel

theorem witness_DecAciDecodesAnInterval :
    (withFrame aciFrame).fb = [0x00#8, 0x00#8, 0x81#8, 0x0E#8, 0x10#8, 0xAF#8] ∧ crc8 0x00#8 0x00#8 = 0x81#8 ∧
      crc8 0x0E#8 0x10#8 = 0xAF#8 ∧
      (withFrame badAciFrame).fb = [0x00#8, 0x00#8, 0x00#8, 0x0E#8, 0x10#8, 0xAF#8] ∧ crc8 0x00#8 0x00#8 ≠ 0x00#8 := by
  decide +kernel

theorem witness_DecDrdyDecodesTheFlag :
    (withFrame [0x00#8, 0x01#8, 0xB0#8]).fb = [0x00#8, 0x01#8, 0xB0#8] ∧ crc8 0x00#8 0x01#8 = 0xB0#8 ∧
      crc8 0x01#8 0x00#8 = 0x75#8 ∧ crc8 0x00#8 0x01#8 ≠ 0xB1#8 := by decide +kernel

/-- A DEC.MEAS that reports OK, for ChannelsComeFromTheirFrameBytes, ReasmAgreesWithTheDecodedValues. -/
theorem witness_DecMeas_ok : ∃ t, exec .decMeas (withFrame measFrame) = .next t ∧ t.status = 0#8 :=
  ⟨_, rfl, by decide +kernel⟩

/-- A DEC.ACI that reports OK, for ReasmAgreesWithTheDecodedValues. -/
theorem witness_DecAci_ok : ∃ t, exec .decAci (withFrame aciFrame) = .next t ∧ t.status = 0#8 :=
  ⟨_, rfl, by decide +kernel⟩

/-- A DEC.ART and a DEC.SER that report OK, for IdentifierStopsAtTheFirstZeroByte. -/
theorem witness_DecArt_DecSer_ok :
    (∃ t, exec .decArt (withFrame idFrame) = .next t ∧ t.status = 0#8) ∧
      ∃ t, exec .decSer (withFrame idFrame) = .next t ∧ t.status = 0#8 :=
  ⟨⟨_, rfl, by decide +kernel⟩,
    ⟨_, rfl, by decide +kernel⟩⟩

/-- For FrameValidityIsTheAndOverAllTriplets and ExtractTakesTheDataBytesInOrder. -/
theorem witness_whole_triplets : measFrame.length % 3 = 0 ∧ 19 < measFrame.length / 3 := by decide

theorem witness_OneBadTripletFailsTheWholeFrame :
    expLenOf .decAci = some (withFrame badAciFrame).fb.length ∧ 0 < (withFrame badAciFrame).fb.length / 3 ∧
      ¬ TripletMatches (withFrame badAciFrame).fb 0 := by
  unfold TripletMatches
  decide +kernel

theorem witness_EachKindHasItsRow : measFrame.length = Kind.meas.expLen ∧ aciFrame.length = Kind.aci.expLen := by
  decide

theorem witness_Be32IsBigEndian : 0 + 4 ≤ [0x00#8, 0x12#8, 0x34#8, 0x56#8].length := by decide

theorem witness_ReasmReadsOneGroup :
    4 * (1#8 : Byte).toNat + 4 > [0#8, 0#8, 0x0E#8, 0x10#8].length ∧
      4 * (0#8 : Byte).toNat + 4 ≤ [0#8, 0#8, 0x0E#8, 0x10#8].length := by decide

theorem witness_EncodedIntervalDecodesToItself :
    (withFrame aciFrame).fb =
      wireBytes (encodedTriplet 0x00000081#32) ++ wireBytes (encodedTriplet 0x000E10AF#32) := by decide

/-- A command that runs, and one that reports an error, for CommandsWriteOnlyTheirColumns. -/
theorem witness_CommandsWriteOnlyTheirColumns :
    (∃ t, exec (.crc8 1#8 2#8) State.reset = .next t) ∧
      ∃ t, exec (.reasm 0#8) State.reset = .next t ∧ t.status ≠ 0#8 :=
  ⟨⟨_, rfl⟩, ⟨_, execReasm_rangeErr (by decide), by decide⟩⟩

/-- The clause of LEN_ERR to RANGE_ERR, on an illegal word; the clause of CRC_ERR. -/
theorem witness_AnErrorWritesNoResult :
    (∃ t, step (offering [.cmd 0x04000000#32]) = .next t ∧ t.status = 3#8) ∧
      ∃ t, step { withFrame badAciFrame with inputs := [.cmd 0x21020000#32] } = .next t ∧ t.status = 1#8 :=
  ⟨⟨_, rfl, by decide⟩,
    ⟨_, rfl, by decide +kernel⟩⟩

theorem witness_PushedBytesStayUntilCleared :
    (∃ t, exec .nop (withFrame aciFrame) = .next t) ∧ Instr.nop ≠ .fbclr ∧ 5 < (withFrame aciFrame).fb.length :=
  ⟨⟨_, rfl⟩, by decide, by decide⟩

theorem witness_EveryStepKeepsTheRegisterRanges :
    State.reset.Inv ∧ ∃ t, step (offering [.cmd 0x11AB0000#32]) = .next t :=
  ⟨by constructor <;> decide, ⟨_, rfl⟩⟩

/-- Both clauses of EveryRunIsSafe: a state inside the ranges, and one that a step from reset leads to. -/
theorem witness_EveryRunIsSafe :
    State.reset.Inv ∧ Reachable (setInputs [.rst] State.reset) ∧ ∃ t, Reachable t ∧ t.status = 3#8 :=
  ⟨by constructor <;> decide, .reset _, _, .step (.reset [.cmd 0x04000000#32]) rfl, by decide⟩

theorem witness_DataLengthIsAKindsLength :
    (offering [.rst]).db.length ∈ [0, 2, 4, 32, 40] ∧ ∃ t, step (offering [.rst]) = .next t :=
  ⟨by decide, ⟨_, rfl⟩⟩

/-- Both ways SNAP changes: a good DEC.MEAS, and `rst`. -/
theorem witness_OnlyAGoodMeasurementOrResetChangesTheSnapshot :
    (∃ t, step { withFrame measFrame with inputs := [.cmd 0x21040000#32] } = .next t ∧
        t.snap ≠ (withFrame measFrame).snap) ∧
      ∃ t, step { offering [.rst] with snap := some (Vector.replicate 10 0#32) } = .next t ∧
        t.snap ≠ some (Vector.replicate 10 0#32) :=
  ⟨⟨_, rfl, by decide +kernel⟩,
    ⟨_, rfl, by decide +kernel⟩⟩

theorem witness_FrameBufferHoldsTheBytesPushedSinceCleared :
    (offering [.cmd 0x11AB0000#32, .rst]).inputs = [.cmd 0x11AB0000#32, .rst] := rfl

theorem witness_RepeatedQueriesGiveTheSameOutputs : (withFrame (measFrame.take 58)).fb.length < 59 := by decide

theorem witness_LaterEventsDoNotReachAStep :
    (offering [.cmd 0#32]).inputs = .cmd 0#32 :: [] ∧ ∃ t, step (offering [.cmd 0#32]) = .next t := ⟨rfl, ⟨_, rfl⟩⟩

/-- Each clause of OutputPortsShowTheRegisters and ConditionalOutputsAreAbsent: present and absent, at the bounds. -/
theorem witness_conditional_outputs :
    State.reset.db.length ≤ (0 : Fin 40).val ∧ State.reset.snap = none ∧
      (39 : Fin 40).val < ({ State.reset with db := List.replicate 40 0#8 } : State).db.length ∧
      ({ State.reset with snap := some (Vector.replicate 10 0#32) } : State).snap = some (Vector.replicate 10 0#32) := by
  decide

theorem witness_FrameBytesReachNoOtherCommandsOutputs :
    Instr.fbclr ≠ .verify ∧ isDec .fbclr = false ∧
      withFrame badAciFrame = { withFrame aciFrame with fb := (withFrame badAciFrame).fb } ∧
      (withFrame badAciFrame).fb.length = (withFrame aciFrame).fb.length := by decide

/-- Both clauses, at the bounds: no cycle passed, and exactly CMD_LATENCY cycles passed. -/
theorem witness_AcceptedCommandCompletesAfterTheLatency :
    0 < 1 ∧ (⟨false, true, 0#32⟩ : Pins).rst = false ∧ (⟨false, true, 0#32⟩ : Pins).cmdValid = true ∧
      (∀ x ∈ [(⟨false, true, 7#32⟩ : Pins)], x.rst = false) ∧ ([] : List Pins).length < 1 ∧
      [(⟨false, true, 7#32⟩ : Pins)].length = 1 := by decide

theorem witness_RstAtAClockEdgeResetsEveryRegister :
    (⟨true, true, 0#32⟩ : Pins).rst = true ∧ (⟨false, true, 0#32⟩ : Pins).rst = false ∧
      (⟨false, true, 0#32⟩ : Pins).cmdValid = true ∧ (offering [.rst]).inputs = [.rst] := by decide

theorem witness_CyclesRefineTheSteps : PortState.reset.block.inputs = [] := rfl

/-- Both clauses with hypotheses, at the bounds: `tchk 255, 0, 255` fits, and an operand of 256 does not. -/
theorem witness_AssembledWordsAreTheListedOnes : (255 < 256 ∧ 0 < 256 ∧ 255 < 256) ∧ 256 ≤ 256 := by decide

end Sys2Proof.Tests
end

section
/-! PROOFS. What a command can leave, outcome by outcome: one inversion of `exec`, from which the statements about
every command are derived. -/
namespace Sys2Proof.Machine

/-- `Effect s i t`: command `i` takes `s` to `t`. One constructor per outcome, with the guard under which it is the
outcome (40_checksum.md R103 to R105, 41_frame_decoder.md R124 to R129, 42_reassembler.md R170). -/
inductive Effect (s : State) : Instr → State → Prop where
  | nop : Effect s .nop (report .ok none s)
  | crc8 (hi lo : Byte) : Effect s (.crc8 hi lo) (report .ok none (setRes ((Machine.crc8 hi lo).setWidth 32) s))
  | tchk (hi lo chk : Byte) :
      Effect s (.tchk hi lo chk)
        (report .ok none (setValid (Triplet.ok ⟨hi, lo, chk⟩) (setRes ((hi ++ lo).setWidth 32) s)))
  | encw (hi lo : Byte) :
      Effect s (.encw hi lo) (report .ok none (setRes (0x00#8 ++ hi ++ lo ++ Machine.crc8 hi lo) s))
  | fbclr : Effect s .fbclr (report .ok none (clearFrame s))
  | fbpushFull (b : Byte) (full : s.fb.length = 60) : Effect s (.fbpush b) (report .overflow none s)
  | fbpushRoom (b : Byte) (room : s.fb.length ≠ 60) : Effect s (.fbpush b) (report .ok none (pushByte b s))
  | verifyLenErr (len : s.fb.length = 0 ∨ s.fb.length % 3 ≠ 0) : Effect s .verify (report .lenErr none s)
  | verifyChecked (nonempty : s.fb.length ≠ 0) (whole : s.fb.length % 3 = 0) :
      Effect s .verify (report .ok none (setValid (allTriplets s.fb) s))
  | decLenErr (k : Kind) (len : s.fb.length ≠ k.expLen) : Effect s k.instr (report .lenErr none s)
  | decCrcErr (k : Kind) (len : s.fb.length = k.expLen) (bad : allTriplets s.fb = false) :
      Effect s k.instr (report .crcErr (some k.errorKind) (setValid false s))
  | decOk (k : Kind) (len : s.fb.length = k.expLen) (good : allTriplets s.fb = true) :
      Effect s k.instr (report .ok none (interpret k (extract s.fb) (setValid true (setData (extract s.fb) s))))
  | reasmRangeErr (g : Byte) (out : 4 * g.toNat + 4 > s.db.length) : Effect s (.reasm g) (report .rangeErr none s)
  | reasmInRange (g : Byte) (inside : 4 * g.toNat + 4 ≤ s.db.length) :
      Effect s (.reasm g) (report .ok none (setRes (be32 s.db (4 * g.toNat)) s))

theorem exec_kindInstr (k : Kind) (s : State) : exec k.instr s = .next (decodeFrame k s) := by
  cases k <;> rfl

/-- Each outcome is what `exec` answers. -/
theorem Effect.exec_eq {i : Instr} {s t : State} (h : Effect s i t) : exec i s = .next t := by
  cases h with
  | nop => rfl
  | crc8 hi lo => rfl
  | tchk hi lo chk => rfl
  | encw hi lo => rfl
  | fbclr => rfl
  | fbpushFull b full => exact execFbpush_full full
  | fbpushRoom b room => exact execFbpush_room room
  | verifyLenErr len => exact execVerify_lenErr len
  | verifyChecked nonempty whole => exact execVerify_checked nonempty whole
  | decLenErr k len => rw [exec_kindInstr, decodeFrame_lenErr len]
  | decCrcErr k len bad => rw [exec_kindInstr, decodeFrame_crcErr len bad]
  | decOk k len good => rw [exec_kindInstr, decodeFrame_ok len good]
  | reasmRangeErr g out => exact execReasm_rangeErr out
  | reasmInRange g inside => exact execReasm_inRange inside

theorem exists_effect_kindInstr (k : Kind) (s : State) : ∃ t, Effect s k.instr t := by
  obtain ⟨len, -⟩ | ⟨len, bad, -⟩ | ⟨len, good, -⟩ := decodeFrame_cases k s
  · exact ⟨_, .decLenErr k len⟩
  · exact ⟨_, .decCrcErr k len bad⟩
  · exact ⟨_, .decOk k len good⟩

/-- The outcomes leave no state out. -/
theorem exists_effect (i : Instr) (s : State) : ∃ t, Effect s i t := by
  cases i with
  | nop => exact ⟨_, .nop⟩
  | crc8 hi lo => exact ⟨_, .crc8 hi lo⟩
  | tchk hi lo chk => exact ⟨_, .tchk hi lo chk⟩
  | encw hi lo => exact ⟨_, .encw hi lo⟩
  | fbclr => exact ⟨_, .fbclr⟩
  | fbpush b =>
    by_cases full : s.fb.length = 60
    · exact ⟨_, .fbpushFull b full⟩
    · exact ⟨_, .fbpushRoom b full⟩
  | verify =>
    by_cases len : s.fb.length = 0 ∨ s.fb.length % 3 ≠ 0
    · exact ⟨_, .verifyLenErr len⟩
    · exact ⟨_, .verifyChecked (by tauto) (by tauto)⟩
  | decArt => exact exists_effect_kindInstr .art s
  | decSer => exact exists_effect_kindInstr .ser s
  | decAci => exact exists_effect_kindInstr .aci s
  | decDrdy => exact exists_effect_kindInstr .drdy s
  | decMeas => exact exists_effect_kindInstr .meas s
  | reasm g =>
    by_cases out : 4 * g.toNat + 4 > s.db.length
    · exact ⟨_, .reasmRangeErr g out⟩
    · exact ⟨_, .reasmInRange g (Nat.not_lt.mp out)⟩

/-- `Effect` is `exec`, as a relation. -/
theorem exec_eq_next_iff {i : Instr} {s t : State} : exec i s = .next t ↔ Effect s i t := by
  constructor
  · intro h
    obtain ⟨u, hu⟩ := exists_effect i s
    obtain rfl : u = t := Host.Outcome.next.inj (hu.exec_eq.symm.trans h)
    exact hu
  · exact Effect.exec_eq

/-- Every command completes (60_exceptions.md R212). -/
theorem exec_completes (i : Instr) (s : State) : ∃ t, exec i s = .next t :=
  (exists_effect i s).imp fun _ h => h.exec_eq

theorem report_setInputs (st : Status) (ek : Option ErrorKind) (es : List Input) (s : State) :
    report st ek (setInputs es s) = setInputs es (report st ek s) := rfl

theorem interpret_setInputs (k : Kind) (d : List Byte) (es : List Input) (s : State) :
    interpret k d (setInputs es s) = setInputs es (interpret k d s) := by
  cases k <;> rfl

/-- No outcome depends on the events to come, and none changes them. -/
theorem Effect.setInputs {i : Instr} {s t : State} (h : Effect s i t) (es : List Input) :
    Effect (setInputs es s) i (setInputs es t) := by
  cases h with
  | nop => exact .nop
  | crc8 hi lo => exact .crc8 hi lo
  | tchk hi lo chk => exact .tchk hi lo chk
  | encw hi lo => exact .encw hi lo
  | fbclr => exact .fbclr
  | fbpushFull b full => exact .fbpushFull b full
  | fbpushRoom b room => exact .fbpushRoom b room
  | verifyLenErr len => exact .verifyLenErr len
  | verifyChecked nonempty whole => exact .verifyChecked nonempty whole
  | decLenErr k len => exact .decLenErr k len
  | decCrcErr k len bad => exact .decCrcErr k len bad
  | decOk k len good =>
    rw [← report_setInputs, ← interpret_setInputs]
    exact .decOk k len good
  | reasmRangeErr g out => exact .reasmRangeErr g out
  | reasmInRange g inside => exact .reasmInRange g inside

end Sys2Proof.Machine
end

section
/-! PROOFS. What an event and a step can do: they complete, whatever the block holds, and the events still to come
reach them in nothing (10_state.md R20, R37). -/
namespace Sys2Proof.Machine

/-- Every event completes (60_exceptions.md R212). -/
theorem runInput_completes (e : Input) (s : State) : ∃ t, runInput e s = .next t := by
  cases e with
  | rst => exact ⟨_, runInput_rst s⟩
  | cmd w =>
    rw [runInput_cmd]
    cases hd : decode w with
    | ok i => simpa only [runWord_of_ok hd] using exec_completes i s
    | error why => exact ⟨_, runWord_of_error hd s⟩

theorem step_completes (s : State) : ∃ t, step s = .next t := by
  cases hs : s.inputs with
  | nil => exact ⟨s, step_idle hs⟩
  | cons e rest => simpa only [step_input hs] using runInput_completes e (setInputs rest s)

/-- All that a step can do: nothing, a reset, an ILLEGAL report, or a command's effect. -/
theorem step_cases {s t : State} (h : step s = .next t) :
    (s.inputs = [] ∧ t = s) ∨
    ∃ e rest, s.inputs = e :: rest ∧
      ((e = .rst ∧ t = setInputs rest State.reset) ∨
       (∃ w why, e = .cmd w ∧ decode w = .error why ∧ t = report .illegal none (setInputs rest s)) ∨
       ∃ w i, e = .cmd w ∧ decode w = .ok i ∧ Effect (setInputs rest s) i t) := by
  cases hs : s.inputs with
  | nil =>
    rw [step_idle hs] at h
    exact .inl ⟨rfl, (Host.Outcome.next.inj h).symm⟩
  | cons e rest =>
    rw [step_input hs] at h
    refine .inr ⟨e, rest, rfl, ?_⟩
    cases e with
    | rst => exact .inl ⟨rfl, (Host.Outcome.next.inj h).symm⟩
    | cmd w =>
      rw [runInput_cmd] at h
      cases hd : decode w with
      | error why =>
        rw [runWord_of_error hd] at h
        exact .inr (.inl ⟨w, why, rfl, hd, (Host.Outcome.next.inj h).symm⟩)
      | ok i =>
        rw [runWord_of_ok hd] at h
        exact .inr (.inr ⟨w, i, rfl, hd, exec_eq_next_iff.mp h⟩)

/-- A property of the registers that reset has, and that ILLEGAL and every command keep, is kept by every step. -/
theorem step_keeps {P : State → Prop} (inputs : ∀ es s, P s → P (setInputs es s)) (reset : P State.reset)
    (illegal : ∀ s, P s → P (report .illegal none s)) (command : ∀ i s t, Effect s i t → P s → P t)
    {s t : State} (hs : P s) (h : step s = .next t) : P t := by
  obtain ⟨-, rfl⟩ | ⟨e, rest, -, ⟨-, rfl⟩ | ⟨-, -, -, -, rfl⟩ | ⟨-, i, -, -, he⟩⟩ := step_cases h
  · exact hs
  · exact inputs rest _ reset
  · exact illegal _ (inputs rest s hs)
  · exact command i _ t he (inputs rest s hs)

/-- An event's effect on the registers does not depend on the events after it, and leaves them as they are. -/
theorem runInput_setInputs {e : Input} {s t : State} (h : runInput e s = .next t) (es : List Input) :
    runInput e (setInputs es s) = .next (setInputs es t) := by
  cases e with
  | rst =>
    obtain rfl : resetBlock s = t := Host.Outcome.next.inj h
    rfl
  | cmd w =>
    rw [runInput_cmd] at h ⊢
    cases hd : decode w with
    | error why =>
      rw [runWord_of_error hd] at h ⊢
      obtain rfl : report .illegal none s = t := Host.Outcome.next.inj h
      rfl
    | ok i =>
      rw [runWord_of_ok hd, exec_eq_next_iff] at h ⊢
      exact h.setInputs es

theorem runInput_inputs {e : Input} {s t : State} (h : runInput e s = .next t) : t.inputs = s.inputs := by
  have self : setInputs s.inputs t = t :=
    Host.Outcome.next.inj ((runInput_setInputs h s.inputs).symm.trans h)
  rw [← self, setInputs_inputs]

end Sys2Proof.Machine
end

section
/-! PROOFS. The registers' ranges (10_state.md R25 to R31), in two parts: what a report makes of STATUS, ERRKIND and
VALID holds after any event from any state; the ranges of the buffers are kept. -/
namespace Sys2Proof.Machine

/-- STATUS, ERRKIND and VALID are as a report leaves them (R25, R26, 60_exceptions.md R211). -/
structure State.ReportInRange (s : State) : Prop where
  status_le : s.status.toNat ≤ 5
  errkind_le : s.errkind.toNat ≤ 5
  errkind_iff : s.errkind ≠ 0#8 ↔ s.status = 1#8
  valid_crcErr : s.status = 1#8 → s.valid = false

/-- The buffers are within their capacities, DBLEN is even and STRLEN is an identifier's (R29 to R31). -/
structure State.BuffersInRange (s : State) : Prop where
  flen_le : s.fb.length ≤ 60
  dblen_le : s.db.length ≤ 40
  dblen_even : s.db.length % 2 = 0
  strlen_le : s.strlen.toNat ≤ 32

theorem State.inv_iff {s : State} : s.Inv ↔ s.ReportInRange ∧ s.BuffersInRange :=
  ⟨fun ⟨h1, h2, h3, h4, h5, h6, h7, h8⟩ => ⟨⟨h1, h2, h3, h4⟩, ⟨h5, h6, h7, h8⟩⟩,
    fun ⟨⟨h1, h2, h3, h4⟩, ⟨h5, h6, h7, h8⟩⟩ => ⟨h1, h2, h3, h4, h5, h6, h7, h8⟩⟩

theorem Status.code_toNat_le (st : Status) : st.code.toNat ≤ 5 := by
  cases st <;> decide

theorem Status.code_eq_one_iff (st : Status) : st.code = 1#8 ↔ st = .crcErr := by
  cases st <;> decide

theorem errkindCode_toNat_le (ek : Option ErrorKind) : (errkindCode ek).toNat ≤ 5 := by
  obtain _ | e := ek
  · decide
  · cases e <;> decide

theorem errkindCode_ne_zero_iff (ek : Option ErrorKind) : errkindCode ek ≠ 0#8 ↔ ek.isSome = true := by
  obtain _ | e := ek
  · decide
  · cases e <;> decide

/-- A report that names an ErrorKind exactly with CRC_ERR, and then with VALID 0, is in range. -/
theorem reportInRange_report {st : Status} {ek : Option ErrorKind} {s : State} (kind : ek.isSome = true ↔ st = .crcErr)
    (verdict : st = .crcErr → s.valid = false) : (report st ek s).ReportInRange where
  status_le := st.code_toNat_le
  errkind_le := errkindCode_toNat_le ek
  errkind_iff := (errkindCode_ne_zero_iff ek).trans (kind.trans st.code_eq_one_iff.symm)
  valid_crcErr h := verdict (st.code_eq_one_iff.mp h)

theorem reportInRange_report_none {st : Status} {s : State} (h : st ≠ .crcErr) : (report st none s).ReportInRange :=
  reportInRange_report (by simp [h]) (fun hc => absurd hc h)

/-- Every command leaves its report in range, whatever it found (R201, R202, R205). -/
theorem Effect.reportInRange {i : Instr} {s t : State} (h : Effect s i t) : t.ReportInRange := by
  cases h with
  | decCrcErr k len bad => exact reportInRange_report (by simp) (fun _ => rfl)
  | _ => exact reportInRange_report_none (by decide)

theorem Effect.flen_le {i : Instr} {s t : State} (h : Effect s i t) (hs : s.fb.length ≤ 60) : t.fb.length ≤ 60 := by
  cases h with
  | fbclr => exact Nat.zero_le _
  | fbpushRoom b room =>
    simp only [report_fb, pushByte_fb, List.length_append, List.length_singleton]
    omega
  | decOk k len good => simpa [interpret_frame] using hs
  | _ => exact hs

/-- A command leaves DB as it was, or fills it from a frame of a kind's length (R38, R124). -/
theorem Effect.db_eq {i : Instr} {s t : State} (h : Effect s i t) :
    t.db = s.db ∨ ∃ k : Kind, s.fb.length = k.expLen ∧ t.db = extract s.fb := by
  cases h with
  | decOk k len good => exact .inr ⟨k, len, by simp [interpret_frame]⟩
  | _ => exact .inl rfl

/-- A command leaves STRLEN as it was, or writes an identifier's length (R31, R166). -/
theorem Effect.strlen_eq {i : Instr} {s t : State} (h : Effect s i t) :
    t.strlen = s.strlen ∨ s.fb.length = 48 ∧ t.strlen = BitVec.ofNat 8 (asciiLen (extract s.fb)) := by
  cases h with
  | decOk k len good =>
    cases k with
    | art | ser => exact .inr ⟨len, rfl⟩
    | aci | drdy | meas => exact .inl rfl
  | _ => exact .inl rfl

/-- The bytes a kind extracts: 2n/3 of its frame's n (R122, R123). -/
theorem extract_length_mem {fb : List Byte} {k : Kind} (len : fb.length = k.expLen) :
    (extract fb).length ∈ [2, 4, 32, 40] := by
  rw [extract_length_eq, len]
  cases k <;> decide

theorem asciiLen_extract_toNat_le {fb : List Byte} (len : fb.length = 48) :
    (BitVec.ofNat 8 (asciiLen (extract fb))).toNat ≤ 32 := by
  have h := asciiLen_le (extract fb)
  rw [extract_length_eq, len] at h
  rw [BitVec.toNat_ofNat]
  exact (Nat.mod_le _ _).trans h

theorem Effect.buffersInRange {i : Instr} {s t : State} (h : Effect s i t) (hs : s.BuffersInRange) :
    t.BuffersInRange := by
  obtain ⟨hfb, hdb, heven, hstr⟩ := hs
  obtain ⟨hdb', heven'⟩ : t.db.length ≤ 40 ∧ t.db.length % 2 = 0 := by
    obtain same | ⟨k, len, new⟩ := h.db_eq
    · exact same ▸ ⟨hdb, heven⟩
    · rw [new]
      have := extract_length_mem len
      simp only [List.mem_cons, List.not_mem_nil, or_false] at this
      omega
  have str : t.strlen.toNat ≤ 32 := by
    obtain same | ⟨len, new⟩ := h.strlen_eq
    · exact same ▸ hstr
    · exact new ▸ asciiLen_extract_toNat_le len
  exact ⟨h.flen_le hfb, hdb', heven', str⟩

theorem State.Inv.setInputs {s : State} (h : s.Inv) (es : List Input) : (setInputs es s).Inv :=
  { h with }

theorem State.Inv.report_illegal {s : State} (h : s.Inv) : (report .illegal none s).Inv :=
  State.inv_iff.mpr ⟨reportInRange_report_none (by decide), { (State.inv_iff.mp h).2 with }⟩

theorem Effect.inv {i : Instr} {s t : State} (h : Effect s i t) (hs : s.Inv) : t.Inv :=
  State.inv_iff.mpr ⟨h.reportInRange, h.buffersInRange (State.inv_iff.mp hs).2⟩

theorem State.inv_reset : State.reset.Inv := by
  constructor <;> decide

/-- Settles O43: the ranges are closed facts of R36's values, and no range reads the events to come. -/
theorem registerRangesHoldAtReset : Obligations.RegisterRangesHoldAtReset :=
  ⟨State.inv_reset, State.inv_reset.setInputs⟩

/-- Settles O44: the report's part holds anew after each event, the buffers' part is kept. -/
theorem everyStepKeepsTheRegisterRanges : Obligations.EveryStepKeepsTheRegisterRanges := fun _ _ hs h =>
  step_keeps (fun es _ hs => hs.setInputs es) State.inv_reset (fun _ hs => hs.report_illegal)
    (fun _ _ _ he hs => he.inv hs) hs h

/-- From inside the ranges any number of steps is a safe run: each one completes and stays inside. -/
theorem safeRun_of_inv (k : Nat) : ∀ s : State, s.Inv → SafeRun k s := by
  induction k with
  | zero => exact fun s hs => ⟨s, core_run_zero s, hs⟩
  | succ k ih =>
    intro s hs
    obtain ⟨t, ht⟩ := step_completes s
    obtain ⟨u, hu, inv⟩ := ih t (everyStepKeepsTheRegisterRanges s t hs ht)
    exact ⟨u, (core_run_succ ht k).trans hu, inv⟩

theorem Reachable.inv {s : State} (h : Reachable s) : s.Inv := by
  induction h with
  | reset es => exact State.inv_reset.setInputs es
  | step _ hstep ih => exact everyStepKeepsTheRegisterRanges _ _ ih hstep

/-- Settles O46, by induction on the number of steps and on how the state is reached. -/
theorem everyRunIsSafe : Obligations.EveryRunIsSafe :=
  ⟨safeRun_of_inv, fun _ h => h.inv⟩

/-- Settles O45: DB is replaced only by what a frame of a kind's length extracts. -/
theorem dataLengthIsAKindsLength : Obligations.DataLengthIsAKindsLength := by
  intro s t hs h
  refine step_keeps (P := fun s => s.db.length ∈ [0, 2, 4, 32, 40]) (fun _ _ hs => hs) (by decide) (fun _ hs => hs)
    ?_ hs h
  intro i s t he hs
  obtain same | ⟨k, len, new⟩ := he.db_eq
  · exact same ▸ hs
  · exact new ▸ List.mem_cons_of_mem 0 (extract_length_mem len)

end Sys2Proof.Machine
end

section
/-! PROOFS. The model's walk over triplets agrees with the rules' index forms (41_frame_decoder.md R121, R122,
42_reassembler.md R169), and with it who writes SNAP. -/
namespace Sys2Proof.Machine
open Sys2Proof.Claims

theorem tripletMatches_cons_zero (hi lo chk : Byte) (rest : List Byte) :
    TripletMatches (hi :: lo :: chk :: rest) 0 ↔ crc8 hi lo = chk := Iff.rfl

theorem tripletMatches_cons_succ (hi lo chk : Byte) (rest : List Byte) (t : Nat) :
    TripletMatches (hi :: lo :: chk :: rest) (t + 1) ↔ TripletMatches rest t := Iff.rfl

/-- The first triplet's verdict, and that of the others. -/
theorem allMatch_cons_iff (hi lo chk : Byte) (rest : List Byte) :
    AllMatch (hi :: lo :: chk :: rest) ↔ crc8 hi lo = chk ∧ AllMatch rest := by
  have count : (hi :: lo :: chk :: rest).length / 3 = rest.length / 3 + 1 := by
    simp only [List.length_cons]
    omega
  unfold AllMatch
  rw [count]
  constructor
  · intro h
    exact ⟨h 0 (Nat.succ_pos _), fun t ht => h (t + 1) (Nat.succ_lt_succ ht)⟩
  · rintro ⟨first, others⟩ (_ | t) ht
    · exact first
    · exact others t (Nat.lt_of_succ_lt_succ ht)

/-- R121, by induction over triplets. -/
theorem allTriplets_iff_allMatch (fb : List Byte) (whole : fb.length % 3 = 0) :
    allTriplets fb = true ↔ AllMatch fb := by
  refine frame_induction (P := fun fb => allTriplets fb = true ↔ AllMatch fb) ?_ ?_ fb whole
  · simp [AllMatch]
  · intro hi lo chk rest _ ih
    simp [allMatch_cons_iff, ih]

/-- R122, by induction over triplets: past the last triplet both sides are the zero of `byteAt`. -/
theorem byteAt_extract (fb : List Byte) (whole : fb.length % 3 = 0) : ∀ j, byteAt (extract fb) j = dataByte fb j := by
  refine frame_induction (P := fun fb => ∀ j, byteAt (extract fb) j = dataByte fb j) (fun _ => rfl) ?_ fb whole
  rintro hi lo chk rest _ ih (_ | _ | j)
  · rfl
  · rfl
  · have index : 3 * ((j + 2) / 2) + (j + 2) % 2 = 3 * (j / 2) + j % 2 + 3 := by omega
    rw [extract_cons, byteAt_cons_succ, byteAt_cons_succ, ih j, dataByte, dataByte, index]
    rfl

theorem channels_getElem (d : List Byte) (c : Fin 10) : (channels d)[c] = be32 d (4 * c.val) := by
  fin_cases c <;> rfl

/-- R169: channel `c` of the extracted bytes is that of the frame's own bytes. -/
theorem be32_extract (fb : List Byte) (whole : fb.length % 3 = 0) (c : Fin 10) :
    be32 (extract fb) (4 * c.val) = frameChannel fb c := by
  have h0 : 3 * (4 * c.val / 2) + 4 * c.val % 2 = 6 * c.val := by omega
  have h1 : 3 * ((4 * c.val + 1) / 2) + (4 * c.val + 1) % 2 = 6 * c.val + 1 := by omega
  have h2 : 3 * ((4 * c.val + 2) / 2) + (4 * c.val + 2) % 2 = 6 * c.val + 3 := by omega
  have h3 : 3 * ((4 * c.val + 3) / 2) + (4 * c.val + 3) % 2 = 6 * c.val + 4 := by omega
  simp only [be32, byteAt_extract fb whole, dataByte, h0, h1, h2, h3, frameChannel]

theorem channels_extract (fb : List Byte) (whole : fb.length % 3 = 0) :
    channels (extract fb) = Vector.ofFn (frameChannel fb) := by
  apply Vector.ext
  intro c hc
  rw [Vector.getElem_ofFn, ← be32_extract fb whole ⟨c, hc⟩]
  exact channels_getElem (extract fb) ⟨c, hc⟩

/-- A command leaves SNAP as it was, or is a DEC.MEAS that writes the ten channels of a good frame (R32, R134). -/
theorem Effect.snap_eq {i : Instr} {s t : State} (h : Effect s i t) :
    t.snap = s.snap ∨
    i = .decMeas ∧ t.status = 0#8 ∧ s.fb.length = 60 ∧ AllMatch s.fb ∧
      t.snap = some (Vector.ofFn (frameChannel s.fb)) := by
  cases h with
  | decOk k len good =>
    cases k with
    | meas =>
      have len : s.fb.length = 60 := len
      have whole : s.fb.length % 3 = 0 := by rw [len]
      exact .inr ⟨rfl, rfl, len, (allTriplets_iff_allMatch s.fb whole).mp good,
        congrArg some (channels_extract s.fb whole)⟩
    | art | ser | aci | drdy => exact .inl rfl
  | _ => exact .inl rfl

/-- Settles O47, by the step's cases and the one command effect that writes SNAP. -/
theorem onlyAGoodMeasurementOrResetChangesTheSnapshot :
    Obligations.OnlyAGoodMeasurementOrResetChangesTheSnapshot := by
  intro s t h changed
  obtain ⟨-, rfl⟩ | ⟨e, rest, hs, ⟨rfl, rfl⟩ | ⟨-, -, -, -, rfl⟩ | ⟨w, i, rfl, hd, he⟩⟩ := step_cases h
  · exact absurd rfl changed
  · exact .inl ⟨rest, hs, rfl⟩
  · exact absurd rfl changed
  · obtain same | ⟨rfl, measured⟩ := he.snap_eq
    · exact absurd same changed
    · exact .inr ⟨w, rest, hs, hd, measured⟩

end Sys2Proof.Machine
end

section
/-! PROOFS. The step: the decoded command's meaning (10_state.md R20, R24), alike whatever is offered later (R37). -/
namespace Sys2Proof.Machine

/-- Settles O5: the event is taken, the word decoded and run. -/
theorem stepRunsTheDecodedCommand : Obligations.StepRunsTheDecodedCommand := by
  intro s w i rest hs hd
  rw [step_input hs, runInput_cmd, runWord_of_ok hd]
  rfl

/-- Settles O7: the model's choice for an empty list of events (log entry 2). -/
theorem nothingOfferedChangesNothing : Obligations.NothingOfferedChangesNothing :=
  fun _ => step_idle

/-- Settles O8: each register of R36 by computation, `cmd_ready` by the port's rule. -/
theorem resetStateHasTheStatedValues : Obligations.ResetStateHasTheStatedValues :=
  ⟨rfl, rfl, rfl, rfl, rfl, rfl, rfl, rfl, rfl, rfl, rfl, fun _ low => cmdReady_idle low State.reset⟩

/-- Settles O50: an event's effect commutes with replacing the events to come. -/
theorem laterEventsDoNotReachAStep : Obligations.LaterEventsDoNotReachAStep := by
  rintro s s' t e rest rest' hs rfl h
  rw [step_input hs] at h
  rw [step_input rfl]
  exact runInput_setInputs h rest'

end Sys2Proof.Machine
end

section
/-! PROOFS. What a command may write (10_state.md R38). -/
namespace Sys2Proof.Machine
open Sys2Proof.Claims

@[simp] theorem writesValid_kindInstr (k : Kind) : writesValid k.instr = true := by cases k <;> rfl

@[simp] theorem writesFrame_kindInstr (k : Kind) : writesFrame k.instr = false := by cases k <;> rfl

@[simp] theorem isDec_kindInstr (k : Kind) : isDec k.instr = true := by cases k <;> rfl

/-- An interpretation writes RES in the rows of DEC.ACI and DEC.DRDY alone. -/
theorem interpret_res {k : Kind} (h : writesRes k.instr = false) (d : List Byte) (s : State) :
    (interpret k d s).res = s.res := by
  cases k with
  | aci | drdy => cases h
  | art | ser | meas => rfl

/-- An interpretation writes STRLEN in the row of DEC.ART and DEC.SER alone. -/
theorem interpret_strlen {k : Kind} (h : writesStrlen k.instr = false) (d : List Byte) (s : State) :
    (interpret k d s).strlen = s.strlen := by
  cases k with
  | art | ser => cases h
  | aci | drdy | meas => rfl

theorem Effect.inputs_eq {i : Instr} {s t : State} (h : Effect s i t) : t.inputs = s.inputs := by
  cases h with
  | decOk k len good => simp [interpret_frame]
  | _ => rfl

theorem Effect.valid_eq {i : Instr} {s t : State} (h : Effect s i t) (hw : writesValid i = false) :
    t.valid = s.valid := by
  cases h with
  | tchk | verifyChecked => cases hw
  | decCrcErr k | decOk k => simp at hw
  | _ => rfl

theorem Effect.res_eq {i : Instr} {s t : State} (h : Effect s i t) (hw : writesRes i = false) : t.res = s.res := by
  cases h with
  | crc8 | tchk | encw | reasmInRange => cases hw
  | decOk k len good => exact interpret_res hw _ _
  | _ => rfl

theorem Effect.fb_eq {i : Instr} {s t : State} (h : Effect s i t) (hw : writesFrame i = false) : t.fb = s.fb := by
  cases h with
  | fbclr | fbpushRoom => cases hw
  | decOk k len good => simp [interpret_frame]
  | _ => rfl

theorem Effect.db_eq_of_not_dec {i : Instr} {s t : State} (h : Effect s i t) (hw : isDec i = false) : t.db = s.db := by
  cases h with
  | decOk k => simp at hw
  | _ => rfl

theorem Effect.strlen_eq_of_not_writes {i : Instr} {s t : State} (h : Effect s i t) (hw : writesStrlen i = false) :
    t.strlen = s.strlen := by
  cases h with
  | decOk k len good => exact interpret_strlen hw _ _
  | _ => rfl

/-- A report other than OK comes with no other write but CRC_ERR's `VALID <- 0`, and CRC_ERR comes from DEC.* alone. -/
theorem Effect.eq_of_error {i : Instr} {s t : State} (h : Effect s i t) (error : t.status ≠ 0#8) :
    t = { s with
      status := t.status, errkind := t.errkind, valid := if t.status = 1#8 then false else s.valid } ∧
    (t.status = 1#8 → isDec i = true) := by
  cases h with
  | decLenErr k | decCrcErr k => exact ⟨rfl, fun _ => isDec_kindInstr k⟩
  | fbpushFull | verifyLenErr | reasmRangeErr => exact ⟨rfl, fun crc => absurd crc (by simp [Status.code_eq_one_iff])⟩
  | _ => exact absurd rfl error

/-- Settles O38, column by column, from the outcomes of a command. -/
theorem commandsWriteOnlyTheirColumns : Obligations.CommandsWriteOnlyTheirColumns := by
  intro i s t h
  rw [exec_eq_next_iff] at h
  have snap (hi : i ≠ .decMeas) : t.snap = s.snap := h.snap_eq.resolve_right fun measured => hi measured.1
  exact ⟨h.inputs_eq, h.valid_eq, h.res_eq, h.fb_eq, h.db_eq_of_not_dec, h.strlen_eq_of_not_writes, snap,
    h.eq_of_error⟩

end Sys2Proof.Machine
end

section
/-! PROOFS. The output ports (10_state.md R22, R23), and that FB's bytes reach them through VERIFY and DEC.* alone. -/
namespace Sys2Proof.Machine
open Sys2Proof.Claims

/-- Settles O51, port by port. -/
theorem outputPortsShowTheRegisters : Obligations.OutputPortsShowTheRegisters := by
  intro s
  have valid : observe .valid s = some (if s.valid then 1#1 else 0#1) := by
    rw [observe_valid]
    cases s.valid <;> rfl
  refine ⟨rfl, rfl, valid, rfl, rfl, rfl, rfl, fun i _ => observe_db i s, fun absent => ?_,
    fun v present => ⟨?_, fun c => observe_snap_some c present⟩⟩
  · rw [observe_snapv, absent]
    rfl
  · rw [observe_snapv, present]
    rfl

theorem observe_db_absent {i : Fin 40} {s : State} (h : s.db.length ≤ i.val) : observe (.db i) s = none := by
  rw [observe_db]
  exact List.getElem?_eq_none h

theorem observe_db_present {i : Fin 40} {s : State} (h : i.val < s.db.length) :
    observe (.db i) s = some (byteAt s.db i.val) := by
  rw [observe_db, byteAt_eq_getElem h]
  exact List.getElem?_eq_getElem h

/-- Settles O52: each bank's condition decides presence, and absence decides the host's fault. -/
theorem conditionalOutputsAreAbsent : Obligations.ConditionalOutputsAreAbsent := fun _ =>
  ⟨fun _ h => ⟨observe_db_absent h, hostRead_of_absent (observe_db_absent h)⟩,
    fun _ h => observe_db_present h,
    fun c h => ⟨observe_snap_none c h, hostRead_of_absent (observe_snap_none c h)⟩,
    fun c _ h => observe_snap_some c h⟩

/-- A command that is neither VERIFY nor DEC.* has the same effect on another frame of the same length, but for FB's
own bytes. -/
theorem Effect.withFrame {i : Instr} {s t : State} (h : Effect s i t) (notVerify : i ≠ .verify)
    (notDec : isDec i = false) {fb : List Byte} (len : fb.length = s.fb.length) :
    ∃ fb', fb'.length = t.fb.length ∧ Effect { s with fb := fb } i { t with fb := fb' } := by
  cases h with
  | nop => exact ⟨fb, len, .nop⟩
  | crc8 hi lo => exact ⟨fb, len, .crc8 hi lo⟩
  | tchk hi lo chk => exact ⟨fb, len, .tchk hi lo chk⟩
  | encw hi lo => exact ⟨fb, len, .encw hi lo⟩
  | fbclr => exact ⟨[], rfl, .fbclr⟩
  | fbpushFull b full => exact ⟨fb, len, .fbpushFull b (len.trans full)⟩
  | fbpushRoom b room =>
    exact ⟨fb ++ [b], by simp [len], .fbpushRoom b (fun full => room (len.symm.trans full))⟩
  | verifyLenErr | verifyChecked => exact absurd rfl notVerify
  | decLenErr k | decCrcErr k | decOk k => simp at notDec
  | reasmRangeErr g out => exact ⟨fb, len, .reasmRangeErr g out⟩
  | reasmInRange g inside => exact ⟨fb, len, .reasmInRange g inside⟩

/-- Settles O53: the effect on another frame of the same length differs in FB's bytes alone. -/
theorem frameBytesReachNoOtherCommandsOutputs : Obligations.FrameBytesReachNoOtherCommandsOutputs := by
  intro i s s' notVerify notDec only len
  obtain ⟨t, ht⟩ := exists_effect i s
  obtain ⟨fb', len', ht'⟩ := ht.withFrame notVerify notDec len
  rw [← only] at ht'
  exact ⟨t, _, ht.exec_eq, ht'.exec_eq, observe_congr rfl rfl rfl rfl len'.symm rfl rfl rfl⟩

end Sys2Proof.Machine
end

section
/-! PROOFS. The command port (10_state.md R21, R24): a command completes after its latency, and the cycles refine the
steps. -/
namespace Sys2Proof.Machine

theorem runCycles_cons {latency : Nat} {pins : Pins} {p q : PortState} (h : cycle latency pins p = .next q)
    (rest : List Pins) : runCycles latency (pins :: rest) p = runCycles latency rest q := by
  simp only [runCycles, h]

theorem cycleEvents_cons {latency : Nat} {pins : Pins} {p q : PortState} (h : cycle latency pins p = .next q)
    (rest : List Pins) :
    cycleEvents latency (pins :: rest) p = edgeEvent pins p ++ cycleEvents latency rest q := by
  simp only [cycleEvents, h]

/-- Cycles without `rst` bring a command nearer to its last one, and do nothing else. -/
theorem runCycles_wait (latency : Nat) (b : State) (w : Word) :
    ∀ (waiting : List Pins) (left : Nat), (∀ x ∈ waiting, x.rst = false) → waiting.length ≤ left →
      runCycles latency waiting ⟨b, .busy w left⟩ = .next ⟨b, .busy w (left - waiting.length)⟩
  | [], _, _, _ => rfl
  | x :: rest, 0, _, short => absurd short (Nat.not_succ_le_zero _)
  | x :: rest, left + 1, low, short => by
    obtain ⟨lowX, lowRest⟩ := List.forall_mem_cons.mp low
    rw [runCycles_cons (cycle_wait lowX latency b w left),
      runCycles_wait latency b w rest left lowRest (Nat.le_of_succ_le_succ short), List.length_cons,
      Nat.add_sub_add_right]

/-- At the last cycle the whole command takes effect. -/
theorem runCycles_complete (latency : Nat) {b t : State} {w : Word} (h : runWord w b = .next t) :
    ∀ (waiting : List Pins) (left : Nat), (∀ x ∈ waiting, x.rst = false) → waiting.length = left + 1 →
      runCycles latency waiting ⟨b, .busy w left⟩ = .next ⟨t, .ready⟩
  | [], _, _, len => absurd len (Nat.succ_ne_zero _).symm
  | [x], 0, low, _ => by
    have done : cycle latency x ⟨b, .busy w 0⟩ = .next ⟨t, .ready⟩ := by
      rw [cycle_complete (low x (List.mem_singleton_self x)), h]
      rfl
    exact runCycles_cons done []
  | x :: _ :: _, 0, _, len => by simp at len
  | x :: rest, left + 1, low, len => by
    obtain ⟨lowX, lowRest⟩ := List.forall_mem_cons.mp low
    rw [runCycles_cons (cycle_wait lowX latency b w left)]
    exact runCycles_complete latency h rest left lowRest (Nat.succ.inj len)

/-- Settles O54: by induction on the cycles left, the word waits, then completes whole. -/
theorem acceptedCommandCompletesAfterTheLatency : Obligations.AcceptedCommandCompletesAfterTheLatency := by
  rintro latency b w pins waiting positive noRst offered rfl low
  rw [runCycles_cons (cycle_accept noRst offered latency b)]
  constructor
  · intro short
    exact ⟨_, runCycles_wait latency b pins.cmd waiting _ low (Nat.le_sub_one_of_lt short), rfl,
      fun x => cmdReady_busy x b _ _, fun _ => rfl⟩
  · intro passed
    obtain ⟨t, ht⟩ := runInput_completes (.cmd pins.cmd) b
    exact ⟨t, ht, runCycles_complete latency ht waiting _ low (by omega), fun _ => rfl⟩

/-- One cycle completes, and does to the registers what its event does, or nothing if it has none. -/
theorem cycle_refines (latency : Nat) (pins : Pins) (p : PortState) :
    ∃ q, cycle latency pins p = .next q ∧
      ((edgeEvent pins p = [] ∧ q.block = p.block) ∨
        ∃ e, edgeEvent pins p = [e] ∧ runInput e p.block = .next q.block) := by
  obtain ⟨b, phase⟩ := p
  cases hr : pins.rst with
  | true => exact ⟨_, cycle_rst hr latency _, .inr ⟨.rst, by simp [edgeEvent, hr], rfl⟩⟩
  | false =>
    match phase with
    | .ready =>
      have noEvent : edgeEvent pins ⟨b, .ready⟩ = [] := by simp [edgeEvent, hr]
      cases hv : pins.cmdValid with
      | true => exact ⟨_, cycle_accept hr hv latency b, .inl ⟨noEvent, rfl⟩⟩
      | false => exact ⟨_, cycle_quiet hr hv latency b, .inl ⟨noEvent, rfl⟩⟩
    | .busy w 0 =>
      obtain ⟨t, ht⟩ := runInput_completes (.cmd w) b
      refine ⟨⟨t, .ready⟩, ?_, .inr ⟨.cmd w, by simp [edgeEvent, hr], ht⟩⟩
      rw [cycle_complete hr, ← runInput_cmd, ht]
      rfl
    | .busy w (left + 1) => exact ⟨_, cycle_wait hr latency b w left, .inl ⟨by simp [edgeEvent, hr], rfl⟩⟩

/-- A run on an event and those after it: the event's effect, and then the run on the others. -/
theorem core_run_cons {e : Input} {s t : State} (h : runInput e s = .next t) (es : List Input) :
    Sys2Proof.core.run (e :: es).length (setInputs (e :: es) s) = Sys2Proof.core.run es.length (setInputs es t) := by
  have taken : step (setInputs (e :: es) s) = .next (setInputs es t) :=
    (step_input rfl).trans (runInput_setInputs h es)
  exact core_run_succ taken es.length

/-- Settles O57, by induction on the cycles. -/
theorem cyclesRefineTheSteps : Obligations.CyclesRefineTheSteps := by
  intro latency pins
  induction pins with
  | nil =>
    intro p drained
    exact ⟨p, rfl, congrArg Host.Outcome.next (congrArg (setInputs · p.block) drained.symm)⟩
  | cons x rest ih =>
    intro p drained
    obtain ⟨q, hq, effect⟩ := cycle_refines latency x p
    rw [runCycles_cons hq, cycleEvents_cons hq]
    obtain ⟨noEvent, same⟩ | ⟨e, one, ran⟩ := effect
    · rw [noEvent, List.nil_append, ← same]
      exact ih q (same ▸ drained)
    · obtain ⟨r, hr, steps⟩ := ih q ((runInput_inputs ran).trans drained)
      rw [one]
      exact ⟨r, hr, (core_run_cons ran _).trans steps⟩

end Sys2Proof.Machine
end

section
/-! PROOFS. The frame buffer as memory (20_memory.md R51, R63): what each event leaves in FB, that a pushed byte stays
until FBCLR, and what a command repeated at once does. -/
namespace Sys2Proof.Machine
open Sys2Proof.Claims

theorem frameAfter_error {w : Word} {why : IllegalWord} (hd : decode w = .error why) (fb : List Byte) :
    frameAfter fb (.cmd w) = fb := by
  simp only [frameAfter, hd]

theorem frameAfter_fbclr {w : Word} (hd : decode w = .ok .fbclr) (fb : List Byte) : frameAfter fb (.cmd w) = [] := by
  simp only [frameAfter, hd]

theorem frameAfter_fbpush {w : Word} {b : Byte} (hd : decode w = .ok (.fbpush b)) (fb : List Byte) :
    frameAfter fb (.cmd w) = if fb.length = 60 then fb else fb ++ [b] := by
  simp only [frameAfter, hd]

/-- `frameAfter` follows R38's column FB/FLEN. -/
theorem frameAfter_of_not_writes {w : Word} {i : Instr} (hd : decode w = .ok i) (hw : writesFrame i = false)
    (fb : List Byte) : frameAfter fb (.cmd w) = fb := by
  cases i with
  | fbclr | fbpush => cases hw
  | _ => simp only [frameAfter, hd]

/-- A command leaves in FB what `frameAfter` says of its word. -/
theorem Effect.fb_eq_frameAfter {i : Instr} {s t : State} (h : Effect s i t) {w : Word} (hd : decode w = .ok i) :
    t.fb = frameAfter s.fb (.cmd w) := by
  by_cases hw : writesFrame i = false
  · rw [h.fb_eq hw, frameAfter_of_not_writes hd hw]
  · cases h with
    | fbclr => exact (frameAfter_fbclr hd s.fb).symm
    | fbpushFull b full => rw [frameAfter_fbpush hd, if_pos full, report_fb]
    | fbpushRoom b room => rw [frameAfter_fbpush hd, if_neg room, report_fb, pushByte_fb]
    | decLenErr k | decCrcErr k | decOk k => exact absurd (writesFrame_kindInstr k) hw
    | _ => exact absurd rfl hw

/-- An event leaves in FB what `frameAfter` says of it. -/
theorem runInput_fb {e : Input} {s t : State} (h : runInput e s = .next t) : t.fb = frameAfter s.fb e := by
  cases e with
  | rst =>
    obtain rfl : resetBlock s = t := Host.Outcome.next.inj h
    rfl
  | cmd w =>
    rw [runInput_cmd] at h
    cases hd : decode w with
    | error why =>
      obtain rfl : report .illegal none s = t := Host.Outcome.next.inj ((runWord_of_error hd s).symm.trans h)
      rw [frameAfter_error hd, report_fb]
    | ok i =>
      rw [runWord_of_ok hd, exec_eq_next_iff] at h
      exact h.fb_eq_frameAfter hd

/-- Settles O48, by induction on the events: each step takes the first one and leaves the others. -/
theorem frameBufferHoldsTheBytesPushedSinceCleared : Obligations.FrameBufferHoldsTheBytesPushedSinceCleared := by
  intro es
  induction es with
  | nil => exact fun s _ => ⟨s, core_run_zero s, rfl⟩
  | cons e rest ih =>
    intro s hs
    obtain ⟨t, ht⟩ := runInput_completes e (setInputs rest s)
    have taken : step s = .next t := (step_input hs).trans ht
    obtain ⟨u, hu, fold⟩ := ih t (runInput_inputs ht)
    refine ⟨u, (core_run_succ taken rest.length).trans hu, ?_⟩
    rw [fold, runInput_fb ht, setInputs_fb, List.foldl_cons]

/-- A command other than FBCLR only appends to FB. -/
theorem Effect.fb_prefix {i : Instr} {s t : State} (h : Effect s i t) (notClear : i ≠ .fbclr) : s.fb <+: t.fb := by
  cases h with
  | fbclr => exact absurd rfl notClear
  | fbpushRoom b room => exact List.prefix_append s.fb [b]
  | decOk k len good => simp [interpret_frame]
  | _ => exact List.prefix_rfl

/-- Settles O40: what stands in FB is a prefix of what stands there afterwards. -/
theorem pushedBytesStayUntilCleared : Obligations.PushedBytesStayUntilCleared := by
  intro i s t j h notClear inside
  obtain ⟨more, append⟩ := (exec_eq_next_iff.mp h).fb_prefix notClear
  rw [← append, List.getElem?_append_left inside]

/-- A command that does not write FB, repeated at once, takes its own outcome to itself: the guards read FB and DB,
and what it wrote it writes again. -/
theorem Effect.repeated {i : Instr} {s t : State} (h : Effect s i t) (hw : writesFrame i = false) : Effect t i t := by
  cases h with
  | nop => exact .nop
  | crc8 hi lo => exact .crc8 hi lo
  | tchk hi lo chk => exact .tchk hi lo chk
  | encw hi lo => exact .encw hi lo
  | fbclr | fbpushFull | fbpushRoom => cases hw
  | verifyLenErr len => exact .verifyLenErr len
  | verifyChecked nonempty whole => exact .verifyChecked nonempty whole
  | decLenErr k len => exact .decLenErr k len
  | decCrcErr k len bad => exact .decCrcErr k len bad
  | decOk k len good => cases k <;> exact .decOk _ len good
  | reasmRangeErr g out => exact .reasmRangeErr g out
  | reasmInRange g inside => exact .reasmInRange g inside

/-- Settles O49: the five queries do not write FB, and below 59 bytes there is room for two pushes. -/
theorem repeatedQueriesGiveTheSameOutputs : Obligations.RepeatedQueriesGiveTheSameOutputs := by
  constructor
  · intro i s query
    have hw : writesFrame i = false := by
      obtain ⟨hi, lo, rfl⟩ | ⟨hi, lo, chk, rfl⟩ | ⟨hi, lo, rfl⟩ | rfl | ⟨g, rfl⟩ := query <;> rfl
    obtain ⟨t, ht⟩ := exists_effect i s
    exact ⟨t, ht.exec_eq, (ht.repeated hw).exec_eq⟩
  · intro b s room
    have first : Effect s (.fbpush b) (report .ok none (pushByte b s)) := .fbpushRoom b (by omega)
    have second : (report .ok none (pushByte b s)).fb.length ≠ 60 := by
      rw [report_fb, pushByte_fb, List.length_append, List.length_singleton]
      omega
    refine ⟨_, _, first.exec_eq, (Effect.fbpushRoom b second).exec_eq, ?_⟩
    simp only [report_fb, pushByte_fb, List.append_assoc, List.singleton_append]

end Sys2Proof.Machine
end

section
/-! PROOFS. The encoding (30_encoding.md R73 to R76): a word decodes to a command exactly when it is the command's
encoding, it is rejected exactly when R74 and R75 make it illegal, and the rows of the opcode map share no word. -/
namespace Sys2Proof
open Sys2Proof.Claims

/-- Settles O1: the fields of the word are the command's own, and on its OP and zero reserved fields each command's
branch of `decodeFields` computes. -/
theorem decodeOfEncodeIsTheCommand : Obligations.DecodeOfEncodeIsTheCommand := by
  intro i
  cases i <;> exact decode_cmdWord _ _ _ _

/-- R74 and R75 on bytes, the unassigned OP values as those of no row. -/
theorem illegalFields_iff (op a b c : Byte) :
    IllegalFields op.toNat a.toNat b.toNat c.toNat ↔
      (op ≠ 0x00#8 ∧ op ≠ 0x01#8 ∧ op ≠ 0x02#8 ∧ op ≠ 0x03#8 ∧ op ≠ 0x10#8 ∧ op ≠ 0x11#8 ∧ op ≠ 0x20#8 ∧
        op ≠ 0x21#8 ∧ op ≠ 0x30#8) ∨
      ((op = 0x00#8 ∨ op = 0x10#8 ∨ op = 0x20#8) ∧ (a ≠ 0#8 ∨ b ≠ 0#8 ∨ c ≠ 0#8)) ∨
      ((op = 0x01#8 ∨ op = 0x03#8) ∧ c ≠ 0#8) ∨
      ((op = 0x11#8 ∨ op = 0x21#8 ∨ op = 0x30#8) ∧ (b ≠ 0#8 ∨ c ≠ 0#8)) ∨
      (op = 0x21#8 ∧ a ≠ 0x00#8 ∧ a ≠ 0x01#8 ∧ a ≠ 0x02#8 ∧ a ≠ 0x03#8 ∧ a ≠ 0x04#8) := by
  simp only [IllegalFields, ← BitVec.toNat_inj, ne_eq, BitVec.toNat_ofNat, Nat.reduceMod, Nat.reducePow]
  omega

/-- What an answer of the decoder says of the four fields: a command, that they spell it; a rejection, that R74 or R75
makes them illegal. -/
def AnswerFits (op a b c : Byte) : Except IllegalWord Instr → Prop
  | .ok i => encode i = cmdWord op a b c
  | .error _ => IllegalFields op.toNat a.toNat b.toNat c.toNat

theorem answerFits_ifReservedZero {op a b c : Byte} {zero : Bool} {i : Instr}
    (spelled : zero = true → encode i = cmdWord op a b c)
    (illegal : zero = false → IllegalFields op.toNat a.toNat b.toNat c.toNat) :
    AnswerFits op a b c (ifReservedZero zero i) := by
  cases zero with
  | true => exact spelled rfl
  | false => exact illegal rfl

/-- The rows that reserve A, B and C. -/
theorem answerFits_reserved_abc {op a b c : Byte} {i : Instr} (hop : op = 0x00#8 ∨ op = 0x10#8 ∨ op = 0x20#8)
    (hi : encode i = cmdWord op 0#8 0#8 0#8) :
    AnswerFits op a b c (ifReservedZero (a == 0#8 && b == 0#8 && c == 0#8) i) := by
  apply answerFits_ifReservedZero
  · simp only [Bool.and_eq_true, beq_iff_eq, and_assoc]
    rintro ⟨rfl, rfl, rfl⟩
    exact hi
  · simp only [Bool.and_eq_false_iff, beq_eq_false_iff_ne, or_assoc]
    exact fun nonzero => (illegalFields_iff ..).mpr (.inr (.inl ⟨hop, nonzero⟩))

/-- The rows that reserve C alone. -/
theorem answerFits_reserved_c {op a b c : Byte} {i : Instr} (hop : op = 0x01#8 ∨ op = 0x03#8)
    (hi : encode i = cmdWord op a b 0#8) : AnswerFits op a b c (ifReservedZero (c == 0#8) i) := by
  apply answerFits_ifReservedZero
  · simp only [beq_iff_eq]
    rintro rfl
    exact hi
  · simp only [beq_eq_false_iff_ne]
    exact fun nonzero => (illegalFields_iff ..).mpr (.inr (.inr (.inl ⟨hop, nonzero⟩)))

/-- The rows of one operand, that reserve B and C. -/
theorem answerFits_reserved_bc {op a b c : Byte} {i : Instr} (hop : op = 0x11#8 ∨ op = 0x21#8 ∨ op = 0x30#8)
    (hi : encode i = cmdWord op a 0#8 0#8) :
    AnswerFits op a b c (ifReservedZero (b == 0#8 && c == 0#8) i) := by
  apply answerFits_ifReservedZero
  · simp only [Bool.and_eq_true, beq_iff_eq]
    rintro ⟨rfl, rfl⟩
    exact hi
  · simp only [Bool.and_eq_false_iff, beq_eq_false_iff_ne]
    exact fun nonzero => (illegalFields_iff ..).mpr (.inr (.inr (.inr (.inl ⟨hop, nonzero⟩))))

/-- OP 0x21 with B and C zero: A is a kind's code (R123), or above 4. -/
theorem answerFits_decodeKind (a : Byte) : AnswerFits 0x21#8 a 0#8 0#8 (decodeKind a) := by
  unfold decodeKind
  split_ifs with art ser aci drdy meas
  · rw [art]; rfl
  · rw [ser]; rfl
  · rw [aci]; rfl
  · rw [drdy]; rfl
  · rw [meas]; rfl
  · exact (illegalFields_iff ..).mpr (.inr (.inr (.inr (.inr ⟨rfl, art, ser, aci, drdy, meas⟩))))

/-- Branch by branch, R76's decoder answers what the four fields spell. -/
theorem answerFits_decodeFields (op a b c : Byte) : AnswerFits op a b c (decodeFields op a b c) := by
  unfold decodeFields
  split_ifs with nop crc8 tchk encw fbclr fbpush verify dec zero reasm
  · exact answerFits_reserved_abc (.inl nop) (by rw [nop]; rfl)
  · exact answerFits_reserved_c (.inl crc8) (crc8 ▸ rfl)
  · exact tchk ▸ rfl
  · exact answerFits_reserved_c (.inr encw) (encw ▸ rfl)
  · exact answerFits_reserved_abc (.inr (.inl fbclr)) (fbclr ▸ rfl)
  · exact answerFits_reserved_bc (.inl fbpush) (fbpush ▸ rfl)
  · exact answerFits_reserved_abc (.inr (.inr verify)) (verify ▸ rfl)
  · simp only [Bool.and_eq_true, beq_iff_eq] at zero
    obtain ⟨rfl, rfl⟩ := zero
    exact dec ▸ answerFits_decodeKind a
  · have nonzero : b ≠ 0#8 ∨ c ≠ 0#8 := by
      simpa only [Bool.and_eq_true, beq_iff_eq, Decidable.not_and_iff_or_not] using zero
    exact (illegalFields_iff ..).mpr (.inr (.inr (.inr (.inl ⟨.inr (.inl dec), nonzero⟩))))
  · exact answerFits_reserved_bc (.inr (.inr reasm)) (reasm ▸ rfl)
  · exact (illegalFields_iff ..).mpr (.inl ⟨nop, crc8, tchk, encw, fbclr, fbpush, verify, dec, reasm⟩)

/-- All that the decoder can do with a word: read the command whose encoding it is, or reject a word that R74 or R75
makes illegal. -/
theorem decode_cases (w : Word) :
    (∃ i, decode w = .ok i ∧ encode i = w) ∨ (∃ why, decode w = .error why ∧ IllegalByRule w) := by
  have fits : AnswerFits (opField w) (aField w) (bField w) (cField w) (decode w) := answerFits_decodeFields ..
  cases hd : decode w with
  | ok i =>
    rw [hd] at fits
    exact .inl ⟨i, rfl, fits.trans (cmdWord_fields w)⟩
  | error why =>
    rw [hd] at fits
    exact .inr ⟨why, rfl, fits⟩

/-- Settles O2: a word that decodes is not rejected, so it is the encoding of what it decodes to. -/
theorem encodeOfDecodedIsTheWord : Obligations.EncodeOfDecodedIsTheWord := by
  intro w i h
  obtain ⟨j, hj, spelled⟩ | ⟨why, rejected, -⟩ := decode_cases w
  · obtain rfl : j = i := Except.ok.inj (hj.symm.trans h)
    exact spelled
  · rw [h] at rejected
    cases rejected

/-- No command's encoding is illegal. -/
theorem not_illegalByRule_encode (i : Instr) : ¬ IllegalByRule (encode i) := by
  cases i <;> simp [IllegalByRule, IllegalFields, encode]

/-- A byte under the mask 0xFF is the byte. -/
theorem byte_eq_of_and_ff {x y : Byte} (h : x &&& 0xFF#8 = y) : x = y := BitVec.and_allOnes.symm.trans h

/-- A row whose mask is full selects its pattern alone. -/
theorem eq_pattern_of_selects {mnemonic : String} {pattern w : Word}
    (h : OpRow.selects ⟨mnemonic, pattern, 0xFFFFFFFF#32⟩ w = true) : pattern = w :=
  (eq_of_beq h).symm.trans BitVec.and_allOnes

/-- Row by row: a word that a row selects is the encoding of a command, its operands the fields the mask leaves out. -/
theorem exists_encode_of_selects {w : Word} : ∀ r ∈ opcodeTable, r.selects w = true → ∃ i, encode i = w := by
  rw [← cmdWord_fields w]
  generalize opField w = op, aField w = a, bField w = b, cField w = c
  simp only [opcodeTable, List.cons_append, List.nil_append, List.forall_mem_cons]
  refine ⟨fun h => ⟨.nop, eq_pattern_of_selects h⟩, fun h => ⟨.crc8 a b, ?_⟩, fun h => ⟨.tchk a b c, ?_⟩,
    fun h => ⟨.encw a b, ?_⟩, fun h => ⟨.fbclr, eq_pattern_of_selects h⟩, fun h => ⟨.fbpush a, ?_⟩,
    fun h => ⟨.verify, eq_pattern_of_selects h⟩, fun h => ⟨.decArt, eq_pattern_of_selects h⟩,
    fun h => ⟨.decSer, eq_pattern_of_selects h⟩, fun h => ⟨.decAci, eq_pattern_of_selects h⟩,
    fun h => ⟨.decDrdy, eq_pattern_of_selects h⟩, fun h => ⟨.decMeas, eq_pattern_of_selects h⟩,
    fun h => ⟨.reasm a, ?_⟩, by simp⟩
  all_goals
    obtain ⟨ho, ha, hb, hc⟩ := (selects_cmdWord ..).mp h
    obtain rfl := byte_eq_of_and_ff ho
  · obtain rfl := byte_eq_of_and_ff hc
    rfl
  · rfl
  · obtain rfl := byte_eq_of_and_ff hc
    rfl
  · obtain rfl := byte_eq_of_and_ff hb
    obtain rfl := byte_eq_of_and_ff hc
    rfl
  · obtain rfl := byte_eq_of_and_ff hb
    obtain rfl := byte_eq_of_and_ff hc
    rfl

/-- Every command's word selects a row with its mnemonic (`Laws.EncodeSelectsRow`, command by command). -/
theorem encode_selects_row (i : Instr) : Laws.EncodeSelectsRow.Statement i := by
  cases i with
  | nop => exact Laws.EncodeSelectsRow.nop
  | crc8 hi lo => exact Laws.EncodeSelectsRow.crc8 hi lo
  | tchk hi lo chk => exact Laws.EncodeSelectsRow.tchk hi lo chk
  | encw hi lo => exact Laws.EncodeSelectsRow.encw hi lo
  | fbclr => exact Laws.EncodeSelectsRow.fbclr
  | fbpush b => exact Laws.EncodeSelectsRow.fbpush b
  | verify => exact Laws.EncodeSelectsRow.verify
  | decArt => exact Laws.EncodeSelectsRow.decArt
  | decSer => exact Laws.EncodeSelectsRow.decSer
  | decAci => exact Laws.EncodeSelectsRow.decAci
  | decDrdy => exact Laws.EncodeSelectsRow.decDrdy
  | decMeas => exact Laws.EncodeSelectsRow.decMeas
  | reasm g => exact Laws.EncodeSelectsRow.reasm g

/-- The patterns of two rows differ in a bit that both masks compare. -/
theorem opcodeTable_disjoint :
    ∀ r ∈ opcodeTable, ∀ r' ∈ opcodeTable, r.pattern &&& r'.mask = r'.pattern &&& r.mask → r = r' := by
  decide

theorem selects_unique {r r' : OpRow} (hr : r ∈ opcodeTable) (hr' : r' ∈ opcodeTable) {w : Word}
    (h : r.selects w = true) (h' : r'.selects w = true) : r = r' := by
  have hp : w &&& r.mask = r.pattern := eq_of_beq h
  have hp' : w &&& r'.mask = r'.pattern := eq_of_beq h'
  refine opcodeTable_disjoint r hr r' hr' ?_
  rw [← hp, ← hp', BitVec.and_assoc, BitVec.and_assoc, BitVec.and_comm r.mask]

/-- A row that selects a word is the only one, since no two rows share a word and the table holds no row twice. -/
theorem filter_selects_eq_singleton {r : OpRow} (hr : r ∈ opcodeTable) {w : Word} (h : r.selects w = true) :
    opcodeTable.filter (·.selects w) = [r] := by
  have only : ∀ r' ∈ opcodeTable, r'.selects w = (r' == r) := by
    intro r' hr'
    rw [Bool.eq_iff_iff, beq_iff_eq]
    exact ⟨fun h' => selects_unique hr' hr h' h, fun e => e ▸ h⟩
  have once : opcodeTable.count r = 1 := List.count_eq_one_of_mem (by decide) hr
  rw [List.filter_congr only, List.filter_beq, once, List.replicate_one]

/-- Settles O3: a word that decodes is a command's encoding, which selects its row and no other; a rejected word is
illegal, and no row selects it. -/
theorem everyWordSelectsItsRowOrIsIllegal : Obligations.EveryWordSelectsItsRowOrIsIllegal := by
  intro w
  obtain ⟨i, hd, rfl⟩ | ⟨why, hd, illegal⟩ := decode_cases w
  · obtain ⟨r, hr, name, selects⟩ := encode_selects_row i
    exact .inl ⟨r, i, filter_selects_eq_singleton hr selects, hd, name.symm, not_illegalByRule_encode i⟩
  · refine .inr ⟨List.filter_eq_nil_iff.mpr fun r hr selects => ?_, illegal, why, hd⟩
    obtain ⟨i, rfl⟩ := exists_encode_of_selects r hr selects
    exact not_illegalByRule_encode i illegal

/-- Settles O4: thirteen commands' own words and three illegal ones. -/
theorem listedWordsDecodeAsListed : Obligations.ListedWordsDecodeAsListed := by
  unfold Obligations.ListedWordsDecodeAsListed
  decide

end Sys2Proof
end

section
/-! PROOFS. The assembler (30_encoding.md R77, R78): a line of commands is its fields' sum, an operand that does not fit
is an error, and the pseudo-instructions expand as listed. -/
namespace Sys2Proof
open Sys2Proof.Machine

theorem assemble_of_wellFormed {l : AsmLine} (h : l.wellFormed = true) : l.assemble = .ok (l.expand.map encode) :=
  if_pos h

theorem assemble_of_not_wellFormed {l : AsmLine} (h : l.wellFormed = false) : l.assemble = .error .doesNotFit :=
  if_neg (Bool.eq_false_iff.mp h)

/-- A well-formed line of one command assembles to that command's word. -/
theorem assemble_single {l : AsmLine} {i : Instr} {w : Word} (h : l.wellFormed = true) (one : l.expand = [i])
    (word : encode i = w) : l.assemble = .ok [w] := by
  rw [assemble_of_wellFormed h, one, List.map_singleton, word]

theorem fitsByte_of_lt {n : Nat} (h : n < 256) : fitsByte n = true := decide_eq_true h

theorem fitsByte_of_le {n : Nat} (h : 256 ≤ n) : fitsByte n = false := decide_eq_false (Nat.not_lt.mpr h)

theorem fitsByte_toNat (b : Byte) : fitsByte b.toNat = true := fitsByte_of_lt b.isLt

@[simp] theorem operandByte_toNat (b : Byte) : operandByte b.toNat = b := BitVec.ofNat_toNat ..

/-- The word of three operands that fit, as the sum of its fields (R71). -/
theorem cmdWord_operandBytes (op : Byte) {a b c : Nat} (ha : a < 256) (hb : b < 256) (hc : c < 256) :
    cmdWord op (operandByte a) (operandByte b) (operandByte c) =
      BitVec.ofNat 32 (op.toNat * 0x1000000 + a * 0x10000 + b * 0x100 + c) := by
  apply BitVec.eq_of_toNat_eq
  rw [cmdWord, word_ofBytes_toNat]
  simp only [operandByte, BitVec.toNat_ofNat]
  omega

/-- Settles O58: the listed lines are closed; operands that fit make the fields' sum, and one that does not makes the
line ill formed. -/
theorem assembledWordsAreTheListedOnes : Obligations.AssembledWordsAreTheListedOnes := by
  refine ⟨by decide, fun hi lo chk hhi hlo hchk => ?_, fun n m k hn => ?_⟩
  · have fhi := fitsByte_of_lt hhi
    have flo := fitsByte_of_lt hlo
    have fchk := fitsByte_of_lt hchk
    have zero : 0 < 256 := by decide
    exact ⟨assemble_single (by simp [AsmLine.wellFormed, *]) rfl (cmdWord_operandBytes 0x01#8 hhi hlo zero),
      assemble_single (by simp [AsmLine.wellFormed, *]) rfl (cmdWord_operandBytes 0x02#8 hhi hlo hchk),
      assemble_single (by simp [AsmLine.wellFormed, *]) rfl (cmdWord_operandBytes 0x03#8 hhi hlo zero),
      assemble_single fhi rfl (cmdWord_operandBytes 0x11#8 hhi zero zero),
      assemble_single fhi rfl (cmdWord_operandBytes 0x30#8 hhi zero zero)⟩
  · refine ⟨?_, ?_, ?_, ?_, ?_, ?_, ?_, ?_, ?_⟩ <;>
      exact assemble_of_not_wellFormed (by simp [AsmLine.wellFormed, fitsByte_of_le hn])

/-- Settles O59: the assembler reads each byte back from its number, and RES[7:0] after ENCW is the checksum. -/
theorem pseudoInstructionsExpandAsListed : Obligations.PseudoInstructionsExpandAsListed := by
  refine ⟨fun b0 b1 b2 => by simp [AsmLine.expand], fun bs => ⟨by simp [AsmLine.expand], ?_⟩, fun hi lo s => ?_⟩
  · simp [AsmLine.wellFormed, fitsByte_toNat, Config.fbCap]
  · refine ⟨_, rfl, (Effect.encw hi lo).exec_eq, ?_⟩
    have check : (0x00#8 ++ hi ++ lo ++ crc8 hi lo).extractLsb' 0 8 = crc8 hi lo := cField_cmdWord ..
    rw [pushwAfter, report_res, setRes_res, check]

end Sys2Proof
end

section
/-! PROOFS. The checksum (40_checksum.md R100 to R102): each iteration is a permutation of the bytes, so the checksum is
one in each of its bytes; masking at the end and the reference table give the same values. -/
namespace Sys2Proof.Machine

/-- R100 without its branch: the polynomial is XORed in when the high bit falls out. -/
theorem crcShift_eq (acc : Byte) : crcShift acc = (acc <<< 1) ^^^ bif acc.msb then Config.crcPoly else 0#8 := by
  unfold crcShift
  cases acc.msb with
  | true => rfl
  | false => exact BitVec.xor_zero.symm

/-- The polynomial's low bit is set, so the high bit that falls out comes back as the low one. -/
theorem getLsbD_zero_crcShift (acc : Byte) : (crcShift acc).getLsbD 0 = acc.msb := by
  rw [crcShift_eq, BitVec.getLsbD_xor, BitVec.getLsbD_shiftLeft]
  cases acc.msb <;> rfl

theorem eq_of_shiftLeft_one_eq {a b : Byte} (low : a <<< 1 = b <<< 1) (high : a.msb = b.msb) : a = b := by
  apply BitVec.eq_of_getLsbD_eq
  intro i hi
  by_cases last : i = 7
  · subst last
    rwa [BitVec.msb_eq_getLsbD_last, BitVec.msb_eq_getLsbD_last] at high
  · have bit : i + 1 < 8 := by omega
    simpa [bit, BitVec.getLsbD_eq_getElem hi] using congrArg (·.getLsbD (i + 1)) low

theorem crcShift_injective : Function.Injective crcShift := by
  intro a b h
  have high : a.msb = b.msb := by rw [← getLsbD_zero_crcShift, h, getLsbD_zero_crcShift]
  rw [crcShift_eq, crcShift_eq, high, BitVec.xor_left_inj] at h
  exact eq_of_shiftLeft_one_eq h high

theorem crcStep_eq_iterate (acc : Byte) : crcStep acc = crcShift^[8] acc := rfl

theorem crcStep_injective : Function.Injective crcStep := crcShift_injective.iterate 8

/-- R102's form of the checksum by `T`. -/
theorem crc8_eq_crcStep (hi lo : Byte) : crc8 hi lo = crcStep (crcStep (0xFF#8 ^^^ hi) ^^^ lo) := rfl

theorem crc8_lo_inj {hi lo lo' : Byte} : crc8 hi lo = crc8 hi lo' ↔ lo = lo' := by
  rw [crc8_eq_crcStep, crc8_eq_crcStep, crcStep_injective.eq_iff, BitVec.xor_right_inj]

theorem crc8_hi_inj {hi hi' lo : Byte} : crc8 hi lo = crc8 hi' lo ↔ hi = hi' := by
  rw [crc8_eq_crcStep, crc8_eq_crcStep, crcStep_injective.eq_iff, BitVec.xor_left_inj, crcStep_injective.eq_iff,
    BitVec.xor_right_inj]

theorem crc8_lo_bijective (hi : Byte) : Function.Bijective fun lo => crc8 hi lo :=
  Function.Injective.bijective_of_finite fun _ _ => crc8_lo_inj.mp

theorem crc8_hi_bijective (lo : Byte) : Function.Bijective fun hi => crc8 hi lo :=
  Function.Injective.bijective_of_finite fun _ _ => crc8_hi_inj.mp

/-- A pre-image of `v` is its high byte: each high byte has exactly one low byte that completes it to `v`. -/
theorem preimage_hi_bijective (v : Byte) :
    Function.Bijective fun w : { w : Byte × Byte // crc8 w.1 w.2 = v } => w.1.1 := by
  constructor
  · rintro ⟨⟨hi, lo⟩, h⟩ ⟨⟨hi', lo'⟩, h'⟩ (rfl : hi = hi')
    obtain rfl : lo = lo' := crc8_lo_inj.mp (h.trans h'.symm)
    rfl
  · intro hi
    obtain ⟨lo, h⟩ := (crc8_lo_bijective hi).surjective v
    exact ⟨⟨(hi, lo), h⟩, rfl⟩

theorem card_byte : Nat.card Byte = 256 :=
  (Nat.card_congr BitVec.equivFin.toEquiv).trans (Nat.card_fin 256)

/-- Settles O12: injective maps of the bytes into themselves are bijective, and the pre-images of a value correspond to
their high bytes. -/
theorem crc8IsABijectionInEachByte : Obligations.Crc8IsABijectionInEachByte :=
  ⟨crc8_lo_bijective, crc8_hi_bijective, fun _ _ _ => mt crc8_lo_inj.mp,
    fun v => (Nat.card_congr (.ofBijective _ (preimage_hi_bijective v))).trans card_byte,
    crcStep_injective.bijective_of_finite, crc8_eq_crcStep⟩

/-- Masking commutes with an iteration: bit 7 of the unbounded accumulator is the masked one's high bit. -/
theorem ofNat_wideShift : Function.Semiconj (BitVec.ofNat 8) wideShift crcShift := by
  intro n
  have high : (BitVec.ofNat 8 n).msb = n.testBit 7 := by
    rw [BitVec.msb_eq_getLsbD_last, BitVec.getLsbD_ofNat]
    rfl
  have shift : BitVec.ofNat 8 (n <<< 1) = BitVec.ofNat 8 n <<< 1 := by
    apply BitVec.eq_of_toNat_eq
    simp [Nat.shiftLeft_eq]
  unfold wideShift crcShift
  rw [high, ← shift]
  cases n.testBit 7 with
  | true => exact BitVec.ofNat_xor
  | false => rfl

/-- Masking commutes with taking in a byte (R101). -/
theorem ofNat_wideByte (acc : Nat) (b : Byte) : BitVec.ofNat 8 (wideByte acc b) = crcByte (BitVec.ofNat 8 acc) b := by
  rw [wideByte, ofNat_wideShift.iterate_right 8, BitVec.ofNat_xor, BitVec.ofNat_toNat, BitVec.setWidth_eq, crcByte,
    crcStep_eq_iterate]

/-- Settles O11: the mask at the end moves inward past both bytes, down to the initial value. -/
theorem crc8EqualsTheUnboundedAccumulatorForm : Obligations.Crc8EqualsTheUnboundedAccumulatorForm := by
  intro hi lo
  have masked : BitVec.ofNat 8 (wideByte (wideByte Config.crcInit.toNat hi) lo) = crc8 hi lo := by
    rw [ofNat_wideByte, ofNat_wideByte, BitVec.ofNat_toNat, BitVec.setWidth_eq, crc8]
  rw [← masked, BitVec.toNat_ofNat]
  rfl

/-- The reference table is `T`, entry by entry (95_test_vectors.md 2.2). -/
theorem crcTableAt_eq_crcStep : ∀ x : Byte, crcTableAt x = crcStep x := by decide +kernel

theorem crc8Table_eq_crc8 (hi lo : Byte) : crc8Table hi lo = crc8 hi lo := by
  rw [crc8Table, crcTableAt_eq_crcStep, crcTableAt_eq_crcStep, crc8_eq_crcStep]

/-- Settles O13: both forms apply `T` twice. -/
theorem crc8EqualsTheReferenceTable : Obligations.Crc8EqualsTheReferenceTable :=
  fun hi lo => (crc8Table_eq_crc8 hi lo).symm

end Sys2Proof.Machine
end

section
/-! PROOFS. Error detection (95_test_vectors.md T-C28): an error inside one byte of a valid triplet leaves the other two
bytes, and two valid triplets that share two bytes are one. -/
namespace Sys2Proof.Machine
open Sys2Proof.Claims

/-- Any two bytes of a valid triplet determine the third (R102). -/
theorem Triplet.eq_of_ok {t u : Triplet} (ht : t.ok = true) (hu : u.ok = true)
    (shared : (t.hi = u.hi ∧ t.lo = u.lo) ∨ (t.hi = u.hi ∧ t.chk = u.chk) ∨ (t.lo = u.lo ∧ t.chk = u.chk)) :
    t = u := by
  rw [Triplet.ok_iff] at ht hu
  obtain ⟨hi, lo, chk⟩ := t
  obtain ⟨hi', lo', chk'⟩ := u
  obtain ⟨rfl, rfl⟩ | ⟨rfl, rfl⟩ | ⟨rfl, rfl⟩ := shared
  · obtain rfl : chk = chk' := ht.symm.trans hu
    rfl
  · obtain rfl : lo = lo' := crc8_lo_inj.mp (ht.trans hu.symm)
    rfl
  · obtain rfl : hi = hi' := crc8_hi_inj.mp (ht.trans hu.symm)
    rfl

/-- A triplet's bytes hold all 24 bits. -/
theorem tripletOfBits_injective : Function.Injective tripletOfBits := by
  intro v w h
  obtain ⟨hi, lo, chk⟩ := Triplet.mk.inj h
  apply BitVec.eq_of_toNat_eq
  simp only [← BitVec.toNat_inj, BitVec.extractLsb'_toNat, Nat.shiftRight_eq_div_pow] at hi lo chk
  omega

/-- A bit flipped outside a byte leaves the byte. -/
theorem extractLsb'_flip_of_outside (v : BitVec 24) {k i : Nat} (outside : k < i ∨ i + 8 ≤ k) :
    (v ^^^ (1#24 <<< k)).extractLsb' i 8 = v.extractLsb' i 8 := by
  have clear : (BitVec.twoPow 24 k).extractLsb' i 8 = 0#8 := by
    apply BitVec.eq_of_getLsbD_eq
    intro j hj
    have apart : k ≠ i + j := by omega
    simp [apart]
  rw [BitVec.extractLsb'_xor, ← BitVec.twoPow_eq, clear, BitVec.xor_zero]

/-- A bit flipped inside the word changes it. -/
theorem flip_ne (v : BitVec 24) {k : Nat} (hk : k < 24) : v ^^^ (1#24 <<< k) ≠ v := by
  intro h
  have bit := congrArg (·.getLsbD k) h
  simp [hk] at bit

/-- One flipped bit lies in one of the triplet's bytes, so the triplet is no longer valid. -/
theorem tripletOfBits_flip_not_ok {v : BitVec 24} {k : Nat} (hk : k < 24) (hv : (tripletOfBits v).ok = true) :
    (tripletOfBits (v ^^^ (1#24 <<< k))).ok = false := by
  rw [Bool.eq_false_iff]
  intro he
  refine flip_ne v hk (tripletOfBits_injective (Triplet.eq_of_ok he hv ?_))
  have outside {i : Nat} := extractLsb'_flip_of_outside v (k := k) (i := i)
  obtain inChk | inLo | inHi : k < 8 ∨ (8 ≤ k ∧ k < 16) ∨ 16 ≤ k := by omega
  · exact .inl ⟨outside (by omega), outside (by omega)⟩
  · exact .inr (.inl ⟨outside (by omega), outside (by omega)⟩)
  · exact .inr (.inr ⟨outside (by omega), outside (by omega)⟩)

/-- Settles O14: TCHK's VALID is the triplet's verdict. -/
theorem singleBitErrorIsAlwaysDetected : Obligations.SingleBitErrorIsAlwaysDetected := by
  intro v k s hk hv e
  exact ⟨_, (Effect.tchk e.hi e.lo e.chk).exec_eq, tripletOfBits_flip_not_ok hk hv⟩

end Sys2Proof.Machine
end

section
/-! PROOFS. The checksum engine's commands (40_checksum.md R103 to R106): each one's word, its effect by the reference
table, and that it writes nothing else. -/
namespace Sys2Proof.Machine

/-- The rows that reserve C alone reject a C that is not zero (R74). -/
theorem decode_error_of_reserved_c {op a b c : Byte} {i : Instr}
    (row : decodeFields op a b c = ifReservedZero (c == 0#8) i) (nonzero : c ≠ 0#8) :
    ∃ why, decode (op ++ a ++ b ++ c) = .error why :=
  ⟨_, (decode_cmdWord op a b c).trans
    (row.trans (ifReservedZero_error.mpr ⟨beq_eq_false_iff_ne.mpr nonzero, rfl⟩))⟩

/-- A data word, zero-extended, as four bytes. -/
theorem setWidth_dataWord (hi lo : Byte) : (hi ++ lo).setWidth 32 = 0x00#8 ++ 0x00#8 ++ hi ++ lo := by
  apply BitVec.eq_of_toNat_eq
  rw [word_ofBytes_toNat, BitVec.toNat_setWidth_of_le (by decide), BitVec.toNat_append,
    ← Nat.shiftLeft_add_eq_or_of_lt lo.isLt, Nat.shiftLeft_eq]
  simp

/-- Settles O15: the command's effect, with the table's checksum for `crc8`. -/
theorem crc8CommandWritesTheChecksum : Obligations.Crc8CommandWritesTheChecksum := by
  intro hi lo s
  refine ⟨decodeOfEncodeIsTheCommand (.crc8 hi lo), ?_, fun c => decode_error_of_reserved_c rfl, by decide⟩
  rw [crc8Table_eq_crc8]
  exact (Effect.crc8 hi lo).exec_eq

/-- Settles O16: the command's effect, its verdict being the checksum's comparison. -/
theorem tchkValidatesOneTriplet : Obligations.TchkValidatesOneTriplet := by
  intro hi lo chk s
  have effect := (Effect.tchk (s := s) hi lo chk).exec_eq
  rw [crc8Table_eq_crc8]
  refine ⟨decodeOfEncodeIsTheCommand (.tchk hi lo chk), ?_, fun t ht => ?_, by decide⟩
  · rw [← setWidth_dataWord]
    exact effect
  · obtain rfl := Host.Outcome.next.inj (effect.symm.trans ht)
    have word : ((hi ++ lo).setWidth 32).extractLsb' 0 16 = hi ++ lo := by
      rw [← BitVec.setWidth_eq_extractLsb' (by decide), BitVec.setWidth_setWidth_of_le _ (by decide),
        BitVec.setWidth_eq]
    exact Prod.ext word rfl

/-- Settles O17: RES is a word of four bytes, whose fields are its bytes. -/
theorem encwBuildsOneTriplet : Obligations.EncwBuildsOneTriplet := by
  intro hi lo s
  rw [crc8Table_eq_crc8]
  refine ⟨decodeOfEncodeIsTheCommand (.encw hi lo), fun c => decode_error_of_reserved_c rfl, _,
    (Effect.encw hi lo).exec_eq, rfl, opField_cmdWord .., ?_⟩
  exact (Triplet.mk.injEq ..).mpr ⟨aField_cmdWord .., bField_cmdWord .., cField_cmdWord ..⟩

/-- Settles O18: from either state ENCW writes the same word of its operands. -/
theorem encwReadsNoState : Obligations.EncwReadsNoState := fun hi lo _ _ =>
  ⟨_, _, (Effect.encw hi lo).exec_eq, (Effect.encw hi lo).exec_eq, rfl⟩

end Sys2Proof.Machine
end

section
/-! PROOFS. The frame decoder's two functions of a frame by the rules' index forms: its verdict (41_frame_decoder.md
R121) and its data bytes (R122), with the identifier's length (42_reassembler.md R166). -/
namespace Sys2Proof.Machine
open Sys2Proof.Claims

/-- Settles O29: `AllMatch` is the rule's form. -/
theorem frameValidityIsTheAndOverAllTriplets : Obligations.FrameValidityIsTheAndOverAllTriplets :=
  allTriplets_iff_allMatch

theorem allTriplets_eq_false_iff (fb : List Byte) (whole : fb.length % 3 = 0) :
    allTriplets fb = false ↔ ¬ AllMatch fb := by
  rw [← allTriplets_iff_allMatch fb whole, Bool.not_eq_true]

theorem allMatch_nil : AllMatch [] := fun _ ht => absurd ht (Nat.not_lt_zero _)

theorem allMatch_triplet_iff (hi lo chk : Byte) : AllMatch [hi, lo, chk] ↔ crc8 hi lo = chk :=
  (allMatch_cons_iff hi lo chk []).trans (and_iff_left allMatch_nil)

theorem extract_length_of_whole {fb : List Byte} (whole : fb.length % 3 = 0) :
    (extract fb).length = 2 * fb.length / 3 := by
  rw [extract_length_eq]
  omega

/-- Settles O30, by induction over triplets: one triplet at the front moves FB's indices by 3 and the data's by 2. -/
theorem extractTakesTheDataBytesInOrder : Obligations.ExtractTakesTheDataBytesInOrder := by
  refine fun fb whole => ⟨extract_length_of_whole whole, ?_⟩
  refine frame_induction (P := fun fb => ∀ t, t < fb.length / 3 →
    (extract fb)[2 * t]? = fb[3 * t]? ∧ (extract fb)[2 * t + 1]? = fb[3 * t + 1]?) ?_ ?_ fb whole
  · exact fun _ ht => absurd ht (Nat.not_lt_zero _)
  · rintro hi lo chk rest - ih (_ | t) ht
    · exact ⟨rfl, rfl⟩
    · rw [List.length_cons, List.length_cons, List.length_cons] at ht
      rw [extract_cons]
      exact ih t (by omega)

/-- R122: what is extracted is the list of the rule's data bytes. -/
theorem extract_eq_dataBytes {fb : List Byte} (whole : fb.length % 3 = 0) : extract fb = dataBytes fb := by
  apply List.ext_getElem
  · rw [extract_length_of_whole whole, dataBytes, List.length_map, List.length_range]
  · intro j inside _
    rw [← byteAt_eq_getElem inside, byteAt_extract fb whole]
    simp only [dataBytes, List.getElem_map, List.getElem_range]

/-- R166: `AsciiLen` is the index of the first zero byte, or the count of the bytes. -/
theorem isAsciiLen_asciiLen (d : List Byte) : IsAsciiLen d (asciiLen d) := by
  induction d with
  | nil => simp [IsAsciiLen, asciiLen]
  | cons b rest ih =>
    obtain ⟨_, nonzero, zero⟩ := ih
    refine ⟨asciiLen_le (b :: rest), ?_⟩
    by_cases hb : b = 0#8
    · subst hb
      exact ⟨fun _ hi => absurd hi (Nat.not_lt_zero _), fun _ => rfl⟩
    · rw [asciiLen_cons_of_ne hb]
      refine ⟨?_, fun inside => zero (Nat.lt_of_succ_lt_succ inside)⟩
      rintro (_ | i) before
      · exact hb
      · exact nonzero i (Nat.lt_of_succ_lt_succ before)

end Sys2Proof.Machine
end

section
/-! PROOFS. `Decode(K)` as the kind's command (41_frame_decoder.md R123 to R125): each kind's row, and the three
outcomes with what each one writes, the verdict by index. -/
namespace Sys2Proof.Machine
open Sys2Proof.Claims

theorem whole_of_expLen {fb : List Byte} {k : Kind} (len : fb.length = k.expLen) : fb.length % 3 = 0 := by
  rw [len]
  cases k <;> rfl

/-- Settles O32: each row by computation, the count of extracted bytes being 2n/3. -/
theorem eachKindHasItsRow : Obligations.EachKindHasItsRow := by
  intro k
  refine ⟨by cases k <;> rfl, by cases k <;> rfl, by cases k <;> rfl, fun fb len => ?_⟩
  rw [extract_length_eq, len]
  cases k <;> rfl

/-- The wrong length writes STATUS and ERRKIND alone (R204). -/
theorem exec_kindInstr_lenErr (k : Kind) {s : State} (len : s.fb.length ≠ k.expLen) :
    exec k.instr s = .next { s with status := 2#8, errkind := 0#8 } :=
  (Effect.decLenErr k len).exec_eq

/-- A failing triplet writes VALID, STATUS and ERRKIND alone (R125, R205). -/
theorem exec_kindInstr_crcErr (k : Kind) {s : State} (len : s.fb.length = k.expLen) (bad : ¬ AllMatch s.fb) :
    exec k.instr s = .next { s with valid := false, status := 1#8, errkind := k.errorKind.code } :=
  (Effect.decCrcErr k len ((allTriplets_eq_false_iff s.fb (whole_of_expLen len)).mpr bad)).exec_eq

/-- A good frame gives DB its data bytes, and the kind's interpretation of them (R124). -/
theorem exec_kindInstr_ok (k : Kind) {s : State} (len : s.fb.length = k.expLen) (good : AllMatch s.fb) :
    exec k.instr s =
      .next (report .ok none (interpret k (extract s.fb) (setValid true (setData (extract s.fb) s)))) :=
  (Effect.decOk k len ((allTriplets_iff_allMatch s.fb (whole_of_expLen len)).mpr good)).exec_eq

theorem crcErrKind_kindInstr (k : Kind) : crcErrKind k.instr = k.errorKind.code := by cases k <;> rfl

/-- The commands with an expected length are the kinds' (R123). -/
theorem exists_kind_of_expLenOf {i : Instr} {n : Nat} (h : expLenOf i = some n) :
    ∃ k : Kind, i = k.instr ∧ n = k.expLen := by
  cases i with
  | decArt => exact ⟨.art, rfl, (Option.some.inj h).symm⟩
  | decSer => exact ⟨.ser, rfl, (Option.some.inj h).symm⟩
  | decAci => exact ⟨.aci, rfl, (Option.some.inj h).symm⟩
  | decDrdy => exact ⟨.drdy, rfl, (Option.some.inj h).symm⟩
  | decMeas => exact ⟨.meas, rfl, (Option.some.inj h).symm⟩
  | _ => cases h

/-- Settles O31: the triplet at `t` is enough for the frame not to match, whatever the kind. -/
theorem oneBadTripletFailsTheWholeFrame : Obligations.OneBadTripletFailsTheWholeFrame := by
  intro i s t fits inside bad
  obtain ⟨k, rfl, len⟩ := exists_kind_of_expLenOf fits
  rw [crcErrKind_kindInstr]
  exact exec_kindInstr_crcErr k len fun all => bad (all t inside)

end Sys2Proof.Machine
end

section
/-! PROOFS. The frame decoder's commands, one by one (41_frame_decoder.md R126 to R134): each one's word, and what it
writes in each of its outcomes. -/
namespace Sys2Proof.Machine
open Sys2Proof.Claims

/-- Settles O19: the row reserves A, B and C (R74), and the command only reports. -/
theorem nopReportsOkAndNothingElse : Obligations.NopReportsOkAndNothingElse := by
  refine ⟨decodeOfEncodeIsTheCommand .nop, fun a b c nonzero => ?_, fun _ => Effect.nop.exec_eq⟩
  have rejected : (a == 0#8 && b == 0#8 && c == 0#8) = false := by
    simpa only [Bool.and_eq_false_iff, beq_eq_false_iff_ne, or_assoc] using nonzero
  exact ⟨_, (decode_cmdWord 0x00#8 a b c).trans (ifReservedZero_error.mpr ⟨rejected, rfl⟩)⟩

/-- Settles O20: the command's effect. -/
theorem fbclrEmptiesTheFrameBuffer : Obligations.FbclrEmptiesTheFrameBuffer :=
  ⟨decodeOfEncodeIsTheCommand .fbclr, fun _ => Effect.fbclr.exec_eq⟩

/-- Settles O21: the command's two effects. -/
theorem fbpushAppendsOrOverflows : Obligations.FbpushAppendsOrOverflows := fun b _ =>
  ⟨decodeOfEncodeIsTheCommand (.fbpush b), fun full => (Effect.fbpushFull b full).exec_eq,
    fun room => (Effect.fbpushRoom b room).exec_eq⟩

/-- Settles O22: the verdict in VALID is that over every triplet, by index. -/
theorem verifyChecksEveryTriplet : Obligations.VerifyChecksEveryTriplet := by
  refine ⟨decodeOfEncodeIsTheCommand .verify, fun s => ⟨fun len => (Effect.verifyLenErr len).exec_eq, ?_, ?_⟩⟩
  · intro nonempty whole good
    rw [(Effect.verifyChecked nonempty whole).exec_eq, (allTriplets_iff_allMatch s.fb whole).mpr good]
    rfl
  · intro nonempty whole bad
    rw [(Effect.verifyChecked nonempty whole).exec_eq, (allTriplets_eq_false_iff s.fb whole).mpr bad]
    rfl

/-- A good frame of either identifier kind: DB gets the 32 data bytes, STRLEN the identifier's length (R130, R131,
R166). -/
theorem exec_identifier_ok {k : Kind} (identifier : k = .art ∨ k = .ser) {s : State} (len : s.fb.length = 48)
    (good : AllMatch s.fb) :
    ∃ n, IsAsciiLen (dataBytes s.fb) n ∧ n ≤ 32 ∧ exec k.instr s =
      .next { s with
        db := dataBytes s.fb, valid := true, strlen := BitVec.ofNat 8 n, status := 0#8, errkind := 0#8 } := by
  have whole : s.fb.length % 3 = 0 := by rw [len]
  have bound := asciiLen_le (extract s.fb)
  rw [extract_length_of_whole whole, len] at bound
  rw [← extract_eq_dataBytes whole]
  refine ⟨asciiLen (extract s.fb), isAsciiLen_asciiLen _, bound, ?_⟩
  obtain rfl | rfl := identifier
  · exact exec_kindInstr_ok .art len good
  · exact exec_kindInstr_ok .ser len good

/-- Settles O23: the three outcomes of the kind ART. -/
theorem decArtDecodesAnArticleCode : Obligations.DecArtDecodesAnArticleCode :=
  ⟨decodeOfEncodeIsTheCommand .decArt, fun _ =>
    ⟨exec_kindInstr_lenErr .art, exec_kindInstr_crcErr .art, exec_identifier_ok (.inl rfl)⟩⟩

/-- Settles O24: the three outcomes of the kind SER. -/
theorem decSerDecodesASerialNumber : Obligations.DecSerDecodesASerialNumber :=
  ⟨decodeOfEncodeIsTheCommand .decSer, fun _ =>
    ⟨exec_kindInstr_lenErr .ser, exec_kindInstr_crcErr .ser, exec_identifier_ok (.inr rfl)⟩⟩

/-- Settles O25: the frame is two triplets, and its four data bytes are DB and, in the same order, RES. -/
theorem decAciDecodesAnInterval : Obligations.DecAciDecodesAnInterval := by
  refine ⟨decodeOfEncodeIsTheCommand .decAci, fun s => exec_kindInstr_lenErr .aci, ?_⟩
  intro s b3 b2 c1 b1 b0 c0 frame
  have len : s.fb.length = Kind.aci.expLen := by rw [frame]; rfl
  have data : extract s.fb = [b3, b2, b1, b0] := by rw [frame]; rfl
  have verdict : AllMatch s.fb ↔ crc8 b3 b2 = c1 ∧ crc8 b1 b0 = c0 := by
    rw [frame, allMatch_cons_iff, allMatch_triplet_iff]
  constructor
  · intro bad
    exact exec_kindInstr_crcErr .aci len (by rwa [verdict, Decidable.not_and_iff_or_not])
  · intro first second
    have effect := exec_kindInstr_ok .aci len (verdict.mpr ⟨first, second⟩)
    rw [data] at effect
    exact effect

/-- R168: the flag reads the second byte alone. -/
theorem dataReady_pair (b1 b0 : Byte) : dataReady [b1, b0] = if b0 ≠ 0#8 then 1#32 else 0#32 := rfl

/-- Settles O26: the frame is one triplet, and RES is the flag of its second data byte. -/
theorem decDrdyDecodesTheFlag : Obligations.DecDrdyDecodesTheFlag := by
  refine ⟨decodeOfEncodeIsTheCommand .decDrdy, fun s => exec_kindInstr_lenErr .drdy, ?_⟩
  intro s b1 b0 c frame
  have len : s.fb.length = Kind.drdy.expLen := by rw [frame]; rfl
  have data : extract s.fb = [b1, b0] := by rw [frame]; rfl
  have verdict : AllMatch s.fb ↔ crc8 b1 b0 = c := by rw [frame, allMatch_triplet_iff]
  have ok (good : crc8 b1 b0 = c) : exec .decDrdy s =
      .next { s with db := [b1, b0], valid := true, res := dataReady [b1, b0], status := 0#8, errkind := 0#8 } := by
    have effect := exec_kindInstr_ok .drdy len (verdict.mpr good)
    rw [data] at effect
    exact effect
  refine ⟨fun bad => exec_kindInstr_crcErr .drdy len (verdict.not.mpr bad), ?_, ?_⟩
  · intro good zero
    rw [ok good, dataReady_pair, if_neg (not_not.mpr zero)]
  · intro good nonzero
    rw [ok good, dataReady_pair, if_pos nonzero]

/-- A good frame of the kind MEAS: the ten channels by their frame bytes, in the step that writes DB (R134, R169). -/
theorem exec_decMeas_ok {s : State} (len : s.fb.length = 60) (good : AllMatch s.fb) :
    exec .decMeas s =
      .next { s with
        db := dataBytes s.fb, valid := true, snap := some (Vector.ofFn (frameChannel s.fb))
        status := 0#8, errkind := 0#8 } := by
  have whole : s.fb.length % 3 = 0 := by rw [len]
  rw [← channels_extract s.fb whole, ← extract_eq_dataBytes whole]
  exact exec_kindInstr_ok .meas len good

/-- Settles O27: the three outcomes of the kind MEAS. -/
theorem decMeasCommitsTenChannels : Obligations.DecMeasCommitsTenChannels :=
  ⟨decodeOfEncodeIsTheCommand .decMeas, fun _ =>
    ⟨exec_kindInstr_lenErr .meas, exec_kindInstr_crcErr .meas, exec_decMeas_ok⟩⟩

end Sys2Proof.Machine
end

section
/-! PROOFS. A DEC.* that reports OK (41_frame_decoder.md R124): its frame had the kind's length and every checksum
held; DB then, and the channels of a DEC.MEAS (42_reassembler.md R169). -/
namespace Sys2Proof.Machine
open Sys2Proof.Claims

/-- OK is reported for a good frame alone (R124), which is then interpreted. -/
theorem exec_kindInstr_ok_inv {k : Kind} {s t : State} (h : exec k.instr s = .next t) (ok : t.status = 0#8) :
    s.fb.length = k.expLen ∧ AllMatch s.fb ∧
      t = report .ok none (interpret k (extract s.fb) (setValid true (setData (extract s.fb) s))) := by
  obtain rfl := Host.Outcome.next.inj ((exec_kindInstr k s).symm.trans h)
  obtain ⟨-, e⟩ | ⟨-, -, e⟩ | ⟨len, good, e⟩ := decodeFrame_cases k s
  · rw [e, report_status] at ok
    exact absurd ok (by decide)
  · rw [e, report_status] at ok
    exact absurd ok (by decide)
  · exact ⟨len, (allTriplets_iff_allMatch s.fb (whole_of_expLen len)).mp good, e⟩

/-- After OK, DB holds two bytes for each triplet of the kind's frame (R122, R123). -/
theorem exec_kindInstr_ok_dblen {k : Kind} {s t : State} (h : exec k.instr s = .next t) (ok : t.status = 0#8) :
    t.db.length = 2 * (k.expLen / 3) := by
  obtain ⟨len, -, rfl⟩ := exec_kindInstr_ok_inv h ok
  obtain ⟨-, -, -, -, db, -⟩ := interpret_frame k (extract s.fb) (setValid true (setData (extract s.fb) s))
  rw [report_db, db, setValid_db, setData_db, extract_length_eq, len]

/-- The snapshot's channel is what the channel's port shows (R22, R33). -/
theorem channelPattern_of_snap {t : State} {v : Vector Word 10} (h : t.snap = some v) (c : Channel) :
    channelPattern c t = some v[c.index] :=
  observe_snap_some c.index h

/-- Channel `c` takes the frame's triplets `2c` and `2c + 1` (R169). -/
theorem channel_checksums_of_allMatch {fb : List Byte} (len : fb.length = 60) (good : AllMatch fb) (c : Fin 10) :
    crc8 (byteAt fb (6 * c.val)) (byteAt fb (6 * c.val + 1)) = byteAt fb (6 * c.val + 2) ∧
    crc8 (byteAt fb (6 * c.val + 3)) (byteAt fb (6 * c.val + 4)) = byteAt fb (6 * c.val + 5) := by
  have first := good (2 * c.val) (by omega)
  have second := good (2 * c.val + 1) (by omega)
  have start : 3 * (2 * c.val) = 6 * c.val := by omega
  rw [TripletMatches, start] at first
  rw [TripletMatches, Nat.mul_add, start] at second
  exact ⟨first, second⟩

/-- Settles O28: the snapshot holds the frame's channels, and a good frame's triplets all match. -/
theorem channelsComeFromTheirFrameBytes : Obligations.ChannelsComeFromTheirFrameBytes := by
  intro s t c h ok n
  have index : n = c.index := by cases c <;> rfl
  clear_value n
  subst index
  obtain ⟨len, good, rfl⟩ := exec_kindInstr_ok_inv (k := .meas) h ok
  refine ⟨?_, channel_checksums_of_allMatch len good c.index⟩
  rw [channelPattern_of_snap rfl, channels_getElem, be32_extract s.fb (whole_of_expLen len)]

end Sys2Proof.Machine
end

section
/-! PROOFS. The reassembler (42_reassembler.md R160 to R170): BE32, the interval's way there and back, the identifier,
REASM after a decoded frame, and the host's reading of a pattern. -/
namespace Sys2Proof.Machine
open Sys2Proof.Claims

/-- Inside a sequence BE32 reads its four bytes (R160). -/
theorem be32_eq_getElem {d : List Byte} {i : Nat} (inside : i + 4 ≤ d.length) :
    be32 d i = d[i] ++ d[i + 1] ++ d[i + 2] ++ d[i + 3] := by
  rw [be32, byteAt_eq_getElem, byteAt_eq_getElem, byteAt_eq_getElem, byteAt_eq_getElem]

/-- Settles O33: all four indices are inside, and a word of four bytes is their weighted sum. -/
theorem be32IsBigEndian : Obligations.Be32IsBigEndian := by
  intro d i inside
  refine ⟨d[i], d[i + 1], d[i + 2], d[i + 3], List.getElem?_eq_getElem _, List.getElem?_eq_getElem _,
    List.getElem?_eq_getElem _, List.getElem?_eq_getElem _, be32_eq_getElem inside, ?_⟩
  rw [be32_eq_getElem inside, word_ofBytes_toNat]

/-- Settles O35: DB is what the frame extracts, 40 bytes or 4, and both commands read it by BE32. -/
theorem reasmAgreesWithTheDecodedValues : Obligations.ReasmAgreesWithTheDecodedValues := by
  constructor
  · intro s t c h ok
    obtain ⟨-, -, rfl⟩ := exec_kindInstr_ok_inv (k := .meas) h ok
    have group : (BitVec.ofNat 8 c.val).toNat = c.val := Nat.mod_eq_of_lt (by omega)
    refine ⟨_, _, rfl, (Effect.reasmInRange _ ?_).exec_eq, rfl, ?_⟩
    · rw [group, exec_kindInstr_ok_dblen (k := .meas) h ok]
      exact Nat.mul_le_mul_left 4 c.isLt
    · rw [channels_getElem, group]
      rfl
  · intro s t h ok
    have dblen : t.db.length = 4 := exec_kindInstr_ok_dblen (k := .aci) h ok
    obtain ⟨-, -, rfl⟩ := exec_kindInstr_ok_inv (k := .aci) h ok
    exact ⟨⟨_, (Effect.reasmInRange 0#8 dblen.ge).exec_eq, rfl, rfl⟩,
      ⟨_, (Effect.reasmRangeErr 1#8 (dblen.trans_lt (by decide))).exec_eq, rfl, rfl⟩⟩

/-- Settles O36: ENCW's triplets carry the interval's four bytes with their checksums, and DEC.ACI reads the bytes
back in the same order. -/
theorem encodedIntervalDecodesToItself : Obligations.EncodedIntervalDecodesToItself := by
  intro v s
  obtain ⟨-, -, t, ht, -, -, high⟩ := encwBuildsOneTriplet (v.extractLsb' 24 8) (v.extractLsb' 16 8) s
  obtain ⟨-, -, t', ht', -, -, low⟩ := encwBuildsOneTriplet (v.extractLsb' 8 8) (v.extractLsb' 0 8) s
  refine ⟨t, t', ht, ht', fun u frame => ?_⟩
  rw [high, low, crc8Table_eq_crc8, crc8Table_eq_crc8] at frame
  obtain ⟨-, -, decodes⟩ := decAciDecodesAnInterval
  exact ⟨_, (decodes u _ _ _ _ _ _ frame).2 rfl rfl, cmdWord_fields v, rfl, rfl, rfl⟩

/-- R166: the bytes before the first zero byte are the longest prefix without one. -/
theorem take_asciiLen (d : List Byte) : d.take (asciiLen d) = d.takeWhile fun b => b != 0#8 := by
  induction d with
  | nil => rfl
  | cons b rest ih =>
    by_cases hb : b = 0#8
    · subst hb
      rfl
    · have kept : (b != 0#8) = true := bne_iff_ne.mpr hb
      rw [asciiLen_cons_of_ne hb, List.take_succ_cons, ih, List.takeWhile_cons, if_pos kept]

/-- Both kinds of identifier write its length (R130, R131). -/
theorem interpret_identifier {k : Kind} (kind : k = .art ∨ k = .ser) (d : List Byte) (s : State) :
    interpret k d s = setStrlen (asciiLen d) s := by
  obtain rfl | rfl := kind <;> rfl

/-- DB holds the data bytes and STRLEN their `AsciiLen`: the count of a frame's data bytes fits 8 bits (R31). -/
theorem identifier_of_exec_ok {k : Kind} (kind : k = .art ∨ k = .ser) {s t : State}
    (h : exec k.instr s = .next t) (ok : t.status = 0#8) :
    identifier t = (dataBytes s.fb).takeWhile fun b => b != 0#8 := by
  obtain ⟨len, -, rfl⟩ := exec_kindInstr_ok_inv h ok
  have counts : ∀ n ∈ [2, 4, 32, 40], n < 256 := by decide
  have short := (asciiLen_le (extract s.fb)).trans_lt (counts _ (extract_length_mem len))
  rw [interpret_identifier kind, identifier, report_strlen, setStrlen_strlen, BitVec.toNat_ofNat,
    Nat.mod_eq_of_lt short, ← extract_eq_dataBytes (whole_of_expLen len)]
  exact take_asciiLen (extract s.fb)

/-- Settles O37, for each of the two kinds. -/
theorem identifierStopsAtTheFirstZeroByte : Obligations.IdentifierStopsAtTheFirstZeroByte := by
  rintro i s t (rfl | rfl) h ok
  · exact identifier_of_exec_ok (.inl rfl) h ok
  · exact identifier_of_exec_ok (.inr rfl) h ok

/-- R163, a normal number: the exponent field is neither 0 nor 255. -/
theorem f32_normal {p : Word} {e f : Nat} (exponent : (p.extractLsb' 23 8).toNat = e)
    (fraction : (p.extractLsb' 0 23).toNat = f) (nonzero : e ≠ 0) (finite : e ≠ 255) :
    f32 p = .number (p.getLsbD 31) (2 ^ ((e : Int) - 127) * (1 + f / 2 ^ 23)) := by
  simp only [f32, exponent, fraction, if_neg nonzero, if_neg finite]

/-- R163, zero: the exponent and the fraction fields are 0. -/
theorem f32_zero {p : Word} (exponent : (p.extractLsb' 23 8).toNat = 0) (fraction : (p.extractLsb' 0 23).toNat = 0) :
    f32 p = .number (p.getLsbD 31) 0 := by
  simp [f32, exponent, fraction]

/-- Settles O60: the first pattern is `2^(130 - 127) * (1 + 2^21 / 2^23)`, the second is zero. -/
theorem sourcePatternsReadAsTenAndZero : Obligations.SourcePatternsReadAsTenAndZero := by
  constructor
  · have value : (2 : Rat) ^ (((130 : Nat) : Int) - 127) * (1 + (2097152 : Nat) / 2 ^ 23) = 10 := by norm_num
    rw [f32_normal (e := 130) (f := 2097152) (by decide) (by decide) (by decide) (by decide), value]
    rfl
  · exact f32_zero (by decide) (by decide)

end Sys2Proof.Machine
end

section
/-! PROOFS. The exceptions (60_exceptions.md R200 to R212): which status a command reports and with which ErrorKind,
what an error writes on a step, the illegal words, and REASM's range. -/
namespace Sys2Proof.Machine
open Sys2Proof.Claims

/-- A command has one outcome in each state (10_state.md R37). -/
theorem Effect.unique {i : Instr} {s t u : State} (h : Effect s i t) (h' : Effect s i u) : t = u :=
  Host.Outcome.next.inj (h.exec_eq.symm.trans h'.exec_eq)

@[simp] theorem expLenOf_kindInstr (k : Kind) : expLenOf k.instr = some k.expLen := by cases k <;> rfl

/-- A frame does not match exactly when some triplet fails. -/
theorem not_allMatch_iff (fb : List Byte) :
    ¬ AllMatch fb ↔ ∃ t, t < fb.length / 3 ∧ ¬ TripletMatches fb t := by
  simp only [AllMatch, not_forall, exists_prop]

/-- CRC_ERR (R205). -/
theorem Effect.status_eq_crcErr_iff {i : Instr} {s t : State} (h : Effect s i t) :
    t.status = 1#8 ↔ CrcErrCause i s := by
  constructor
  · intro crc
    cases h with
    | decCrcErr k len bad =>
      rw [allTriplets_eq_false_iff s.fb (whole_of_expLen len), not_allMatch_iff] at bad
      exact ⟨by rw [expLenOf_kindInstr, len], bad⟩
    | _ => exact absurd crc (by simp [Status.code])
  · rintro ⟨fits, bad⟩
    obtain ⟨k, rfl, len⟩ := exists_kind_of_expLenOf fits
    rw [← not_allMatch_iff, ← allTriplets_eq_false_iff s.fb (whole_of_expLen len)] at bad
    rw [h.unique (.decCrcErr k len bad)]
    rfl

/-- LEN_ERR (R204). -/
theorem Effect.status_eq_lenErr_iff {i : Instr} {s t : State} (h : Effect s i t) :
    t.status = 2#8 ↔ LenErrCause i s := by
  constructor
  · intro lenErr
    cases h with
    | verifyLenErr len => exact .inl ⟨rfl, len⟩
    | decLenErr k len => exact .inr ⟨k.expLen, expLenOf_kindInstr k, len⟩
    | _ => exact absurd lenErr (by simp [Status.code])
  · rintro (⟨rfl, len⟩ | ⟨n, expected, len⟩)
    · rw [h.unique (.verifyLenErr len)]
      rfl
    · obtain ⟨k, rfl, rfl⟩ := exists_kind_of_expLenOf expected
      rw [h.unique (.decLenErr k len)]
      rfl

/-- OVERFLOW (R206). -/
theorem Effect.status_eq_overflow_iff {i : Instr} {s t : State} (h : Effect s i t) :
    t.status = 4#8 ↔ OverflowCause i s := by
  constructor
  · intro overflow
    cases h with
    | fbpushFull b full => exact ⟨⟨b, rfl⟩, full⟩
    | _ => exact absurd overflow (by simp [Status.code])
  · rintro ⟨⟨b, rfl⟩, full⟩
    rw [h.unique (.fbpushFull b full)]
    rfl

/-- RANGE_ERR (R207). -/
theorem Effect.status_eq_rangeErr_iff {i : Instr} {s t : State} (h : Effect s i t) :
    t.status = 5#8 ↔ RangeErrCause i s := by
  constructor
  · intro rangeErr
    cases h with
    | reasmRangeErr g out => exact ⟨g, rfl, out⟩
    | _ => exact absurd rangeErr (by simp [Status.code])
  · rintro ⟨g, rfl, out⟩
    rw [h.unique (.reasmRangeErr g out)]
    rfl

/-- A command that decodes reports one of the five other statuses (R200, R203). -/
theorem Effect.status_mem {i : Instr} {s t : State} (h : Effect s i t) : t.status ∈ [0#8, 1#8, 2#8, 4#8, 5#8] := by
  cases h <;> simp [Status.code]

/-- Settles O42: each error's status by its cause, and OK as the one status that is left. -/
theorem statusIsReportedForItsCause : Obligations.StatusIsReportedForItsCause := by
  intro i s
  obtain ⟨t, h⟩ := exists_effect i s
  refine ⟨t, h.exec_eq, h.status_eq_crcErr_iff, h.status_eq_lenErr_iff, ?_, h.status_eq_overflow_iff,
    h.status_eq_rangeErr_iff, ?_⟩
  · exact fun illegal => absurd (illegal ▸ h.status_mem) (by decide)
  · rw [← h.status_eq_crcErr_iff, ← h.status_eq_lenErr_iff, ← h.status_eq_overflow_iff, ← h.status_eq_rangeErr_iff]
    have among : ∀ st ∈ [0#8, 1#8, 2#8, 4#8, 5#8], st = 0#8 ↔ st ≠ 1#8 ∧ st ≠ 2#8 ∧ st ≠ 4#8 ∧ st ≠ 5#8 := by decide
    exact among _ h.status_mem

theorem Effect.errkind_of_crcErr {i : Instr} {s t : State} (h : Effect s i t) (crc : t.status = 1#8) :
    t.errkind = crcErrKind i := by
  cases h with
  | decCrcErr k len bad => exact (crcErrKind_kindInstr k).symm
  | _ => exact absurd crc (by simp [Status.code])

/-- Settles O41: every report is in range, and CRC_ERR comes from a DEC.* with its kind's code. -/
theorem errkindNamesTheFailedRead : Obligations.ErrkindNamesTheFailedRead := by
  intro i s
  obtain ⟨t, h⟩ := exists_effect i s
  refine ⟨t, h.exec_eq, h.reportInRange.status_le, ?_, ?_⟩
  · intro crc
    have error : t.status ≠ 0#8 := by rw [crc]; decide
    exact ⟨h.errkind_of_crcErr crc, (h.eq_of_error error).2 crc⟩
  · exact fun other => not_not.mp fun named => other (h.reportInRange.errkind_iff.mp named)

/-- R210 for every word: any report but OK comes with no other write but CRC_ERR's `VALID <- 0`. -/
theorem runWord_eq_of_error {w : Word} {s t : State} (h : runWord w s = .next t) (error : t.status ≠ 0#8) :
    t = { s with
      status := t.status, errkind := t.errkind, valid := if t.status = 1#8 then false else s.valid } := by
  cases hd : decode w with
  | ok i =>
    rw [runWord_of_ok hd, exec_eq_next_iff] at h
    exact (h.eq_of_error error).1
  | error why =>
    rw [runWord_of_error hd] at h
    obtain rfl := Host.Outcome.next.inj h
    rfl

/-- Settles O39: the step takes the word and runs it, and the five error codes are not OK's. -/
theorem anErrorWritesNoResult : Obligations.AnErrorWritesNoResult := by
  intro s t w rest hs h
  rw [step_input hs, runInput_cmd] at h
  have error (nonzero : t.status ≠ 0#8) := runWord_eq_of_error h nonzero
  constructor
  · intro codes
    have other : t.status ≠ 0#8 ∧ t.status ≠ 1#8 := by
      obtain e | e | e | e := codes <;> rw [e] <;> decide
    rw [if_neg other.2] at error
    exact error other.1
  · intro crc
    rw [if_pos crc] at error
    exact error (by rw [crc]; decide)

/-- Settles O6: a word that R74 or R75 makes illegal is no command's encoding, and every other word is one's. -/
theorem illegalWordReportsIllegalAndNothingElse : Obligations.IllegalWordReportsIllegalAndNothingElse := by
  intro s w rest hs
  obtain ⟨i, hd, rfl⟩ | ⟨why, hd, illegal⟩ := decode_cases w
  · exact ⟨fun illegal => absurd illegal (not_illegalByRule_encode i),
      fun _ => ⟨i, hd, stepRunsTheDecodedCommand s (encode i) i rest hs hd⟩⟩
  · refine ⟨fun _ => ?_, fun legal => absurd illegal legal⟩
    rw [step_input hs, runInput_cmd, runWord_of_error hd]
    rfl

/-- Settles O10: every event completes and leaves the events after it as they are. -/
theorem everyStepAnswersANextState : Obligations.EveryStepAnswersANextState := by
  intro s
  cases hs : s.inputs with
  | nil => exact ⟨s, step_idle hs, hs⟩
  | cons e rest =>
    obtain ⟨t, ht⟩ := runInput_completes e (setInputs rest s)
    exact ⟨t, (step_input hs).trans ht, runInput_inputs ht⟩

/-- Settles O34: the command's two effects, `BE32` being the four bytes in order. -/
theorem reasmReadsOneGroup : Obligations.ReasmReadsOneGroup := fun g _ =>
  ⟨decodeOfEncodeIsTheCommand (.reasm g), fun out => (Effect.reasmRangeErr g out).exec_eq,
    fun inside => (Effect.reasmInRange g inside).exec_eq⟩

end Sys2Proof.Machine
end

section
/-! PROOFS. Reset (70_reset_and_hazards.md R240 to R242): `rst` as an event of the step, and at a clock edge of the
port. -/
namespace Sys2Proof.Machine

/-- R240: whatever the registers hold, `rst` leaves the reset state and the events after it. -/
theorem step_rst {s : State} {rest : List Input} (h : s.inputs = .rst :: rest) :
    step s = .next (setInputs rest State.reset) := by
  rw [step_input h, runInput_rst, resetBlock_eq, setInputs_inputs]

theorem edgeEvent_rst {pins : Pins} (h : pins.rst = true) (p : PortState) : edgeEvent pins p = [.rst] := if_pos h

/-- Settles O9: the step takes the event, and the event's effect is the reset state. -/
theorem rstStepAnswersTheResetState : Obligations.RstStepAnswersTheResetState :=
  fun _ _ => step_rst

/-- Settles O55: the edge with `rst`, the cycle after it, and the event of the step, each by its rule. -/
theorem rstAtAClockEdgeResetsEveryRegister : Obligations.RstAtAClockEdgeResetsEveryRegister := by
  intro latency pins p high
  refine ⟨cmdReady_rst high p, cycle_rst high latency p, fun next low => ⟨?ready, ?accepted⟩, fun _ => step_rst⟩
  case ready => exact cmdReady_idle low _
  case accepted => exact fun offered => cycle_accept low offered latency _

/-- Settles O56: an edge with `rst` does not look at the port's phase. -/
theorem rstAbandonsACommandInFlight : Obligations.RstAbandonsACommandInFlight :=
  fun latency _ _ _ _ high => ⟨cycle_rst high latency _, edgeEvent_rst high _⟩

end Sys2Proof.Machine
end
